-- ==== Sys2Proof/Word.lean ====
section
/-! DEFINITION. The value types of the WiFiDigit display core, as 00_scope.md rules R10 and R11 and
30_encoding.md rule R61 give them. Bit 0 is the least significant bit of every value. -/

namespace Sys2Proof

/-- `Bit` (R11): 0 is `false`, 1 is `true`. -/
abbrev Bit := Bool

/-- `Row` (R11): one line of a bitmap, 12 bits, bit 0 the rightmost column (R10, R44). -/
abbrev Row := BitVec 12

/-- A command word or a payload word (R61). -/
abbrev Word16 := BitVec 16

/-- One word of a frame (R11). -/
abbrev Word32 := BitVec 32

/-- `Bitmap` (R11): exactly 8 rows, row 0 the top of the display (R45). -/
abbrev Bitmap := Vector Row 8

/-- `Frame` (R11): exactly 3 words, word 0 delivered first (R46, R47). -/
abbrev Frame := Vector Word32 3

/-- A command packet (R61): 144 bits, `CW` in bits 143 to 128, then `P0` down to `P7`. -/
abbrev Packet := BitVec 144

/-- The eight payload words of a packet, `P0` first (R61). -/
abbrev Payload := Vector Word16 8

/-- The glyph ROM (R40, R41): 72 words of 12 bits, addresses 0 to 71. -/
abbrev GlyphRom := Vector Row 72

end Sys2Proof
end

