-- ==== Sys2Proof/Config.lean ====
section
/-! DEFINITION. The parameters of 00_scope.md rules R8 and R9: the fixed ones at the value R8 gives, the
compositor's shift distances as configuration fields with their normative default 1 (R9 (b), P2), and the two
open parameters `GLYPH_ROM` (P1) and `SINK_INIT` (P3) as constants without a body, so that nothing can be proved of
their value. -/

namespace Sys2Proof

/-- `N_MIN` (R8). -/
abbrev Config.nMin : Int := -99

/-- `N_MAX` (R8). -/
abbrev Config.nMax : Int := 99

/-- `X_MAX` (R8). -/
abbrev Config.xMax : Int := 11

/-- `Y_MAX` (R8). -/
abbrev Config.yMax : Int := 7

/-- `PAD_NONNEG` (R8): the extra left shift when `n ≥ 0`. -/
abbrev Config.padNonneg : Nat := 1

/-- `PAD_NOTENS` (R8): the extra left shift when the tens digit is suppressed. -/
abbrev Config.padNotens : Nat := 3

/-- `FONT_H` (R8, decision D9): rows of a glyph. -/
abbrev Config.fontHeight : Nat := 6

/-- The shift distances of the Glyph Compositor as configuration fields (R9 (b)). -/
structure Config.Shifts where
  /-- `SHIFT_TENS` (R8). -/
  tens : Nat := 1
  /-- `SHIFT_ONES` (R8). -/
  ones : Nat := 1
  deriving DecidableEq, Repr

/-- The distances this core is built with: the normative value 1 of each (R8, R9 (b)). -/
def Config.shifts : Config.Shifts := {}

/-- `GLYPH_ROM` (P1, R43): the ROM contents a platform supplies. DESIGN CHOICE (log entry 3): a free value, no body. -/
opaque Config.glyphRom : GlyphRom

/-- `SINK_INIT` (P3, R191): what the Display Sink shows before the first frame. DESIGN CHOICE (log entry 6): a
free value, no body. -/
opaque Config.sinkInit : Frame

end Sys2Proof
end

