-- ==== Sys2Proof/Machine/State.lean ====
section
/-! DEFINITION. The state of the core (10_state.md), the glyph ROM (20_memory.md), the observed sequences `SINK` and
`RES` (00_scope.md R13), the packets the host has yet to present, and the reasons a step can stop (none of the core's
own, 60_exceptions.md R170). -/

namespace Sys2Proof.Machine

/-- The reasons the core stops with a fault. There are none: "The core raises no synchronous exception" (R170), "No
command faults, hangs, waits or refuses" (R144). With no constructor, that a step never faults holds by type. -/
inductive Fault where
  deriving DecidableEq, Repr

/-- The reasons the model has no meaning for a command. -/
inductive Refusal where
  /-- Answered by `exec` alone, in the arm of a command that has no meaning yet; safe (the run stops, nothing is
  claimed). No arm answers it: all ten commands have their meaning. -/
  | notModelled (mnemonic : String)
  deriving DecidableEq, Repr

/-- `BLANK` (R22): the blank bitmap, hardwired, every row 0x000. It is a constant of the core, not a register. -/
def blankBitmap : Bitmap := Vector.replicate 8 0

/-- The state of the core and of what surrounds it. -/
structure State where
  /-- `CUR`, the current bitmap, in display space (R20). -/
  cur : Bitmap
  /-- `SAV`, the saved bitmap (R21). -/
  sav : Bitmap
  /-- `ORI`, the orientation flag: 0 upright, 1 upside-down (R27). -/
  ori : Bit
  /-- `BLINK`, the blink phase: 0 off, 1 on (R28). -/
  blink : Bit
  /-- The glyph ROM, the core's one memory: 72 words of 12 bits, constant for the life of the core (R40 to R42). -/
  rom : GlyphRom
  /-- `SINK`, the frames delivered to the Display Sink, oldest first (R13, R52 (c)); observation, the core never reads it. -/
  sink : List Frame
  /-- `RES`, the bits placed on the result port, oldest first (R13); observation, the core never reads it. -/
  res : List Bit
  /-- The model's own field: the packets the host will present at `CMD`, the next one first (R26, R149; log entry 1). -/
  pending : List Packet
  deriving DecidableEq, Repr

/-- The core right after reset (R34, R190): both bitmaps zero, orientation normal, blink phase off, `SINK` and `RES`
empty. The ROM is not affected by reset: it is the open parameter `GLYPH_ROM` (R43). No packet has been presented. -/
def State.reset : State where
  cur := blankBitmap
  sav := blankBitmap
  ori := false
  blink := false
  rom := Config.glyphRom
  sink := []
  res := []
  pending := []

end Sys2Proof.Machine
end

