-- ==== Sys2Proof/Machine/Memory.lean ====
section
/-! DEFINITION. The glyph ROM's address map and its one access (20_memory.md rules R41 and R42). There is no write
(R13, R42), no byte order (R47), no alignment rule (R48) and no address outside 0 to 71: `Fin 72` holds the map. -/

namespace Sys2Proof.Machine

/-- The twelve glyphs of the ROM (R41). -/
inductive Glyph where
  /-- The digit glyphs, `g = 0` to `9`. -/
  | digit (d : Fin 10)
  /-- `G_POS`, `g = 10`. -/
  | pos
  /-- `G_NEG`, `g = 11`. -/
  | neg
  deriving DecidableEq, Repr

/-- The glyph number `g` (R41). -/
def Glyph.number : Glyph → Fin 12
  | .digit d => ⟨d.val, by omega⟩
  | .pos => 10
  | .neg => 11

/-- The word address of row `r` of glyph `g`: `g × FONT_H + r` (R41). -/
def romAddress (g : Glyph) (r : Fin 6) : Fin 72 :=
  ⟨g.number.val * Config.fontHeight + r.val, by have := g.number.isLt; simp only [Config.fontHeight]; omega⟩

/-- `MemRead(a, 1)` (R42): the 12-bit word at a word address, without side effect. -/
def memRead (rom : GlyphRom) (a : Fin 72) : Row := rom[a]

/-- `Glyph(g, r) = MemRead(g × 6 + r, 1)` (R41). -/
def glyphRow (rom : GlyphRom) (g : Glyph) (r : Fin 6) : Row := memRead rom (romAddress g r)

end Sys2Proof.Machine
end

