-- ==== Sys2Proof/Machine/Operands.lean ====
section
/-! DEFINITION. What a command does with an operand before it acts: the domain of `RENDERNUM` and its decomposition
(42_glyph_compositor.md R110 to R113), the bounds of `SETDOT` and the pixel its coordinates name (R134, R44). -/

namespace Sys2Proof.Machine

/-- The domain of `RENDERNUM` (R110): `-99 ≤ n ≤ 99`. -/
def inNumberDomain (n : Int) : Bool := decide (Config.nMin ≤ n) && decide (n ≤ Config.nMax)

/-- The tens digit `t = |n| div 10` (R111); for `|n|` below 100 the remainder by 10 changes nothing. -/
def tensDigit (n : Int) : Fin 10 := ⟨n.natAbs / 10 % 10, Nat.mod_lt _ (by decide)⟩

/-- The ones digit `o = |n| mod 10` (R111). -/
def onesDigit (n : Int) : Fin 10 := ⟨n.natAbs % 10, Nat.mod_lt _ (by decide)⟩

/-- The right-padding shift (R113): `PAD_NONNEG` if `n ≥ 0`, plus `PAD_NOTENS` if the tens digit is 0. -/
def padShift (n : Int) : Nat :=
  (if 0 ≤ n then Config.padNonneg else 0) + (if tensDigit n = 0 then Config.padNotens else 0)

/-- The bounds of `SETDOT` (R134): `0 ≤ x ≤ 11` and `0 ≤ y ≤ 7`. -/
abbrev DotInRange (x y : Int) : Prop := 0 ≤ x ∧ x ≤ Config.xMax ∧ 0 ≤ y ∧ y ≤ Config.yMax

/-- The pixel that in-range coordinates name (R134, R44): row `y`, bit `11 - x`; none out of range. -/
def dotCell (x y : Int) : Option (Fin 8 × Fin 12) :=
  if h : DotInRange x y then
    some (⟨y.toNat, by simp only [DotInRange, Config.yMax] at h; omega⟩,
          ⟨(11 - x).toNat, by simp only [DotInRange, Config.xMax] at h; omega⟩)
  else none

/-- `CUR[y]` with bit `j` set or cleared (R134): `CUR[y] | m` or `CUR[y] & ~m` with `m = 1 << j`. -/
def rowWithBit (v : Row) (j : Fin 12) (on : Bit) : Row :=
  if on then v ||| (1#12 <<< j.val) else v &&& ~~~(1#12 <<< j.val)

/-- A bitmap with one pixel set to `on`; every other bit keeps its value (R134). -/
def bitmapWithDot (b : Bitmap) (cell : Fin 8 × Fin 12) (on : Bit) : Bitmap :=
  b.set cell.1 (rowWithBit b[cell.1] cell.2 on)

end Sys2Proof.Machine
end

