-- ==== Sys2Proof/Machine/GlyphCompositor.lean ====
section
/-! DEFINITION. The Glyph Compositor (42_glyph_compositor.md): `ComposeRow` and `Compose` over any ROM and any shift
distances (R9, R122), the ROM addresses it reads (R118), and a lane built on an accumulator of bounded width (R117). -/

namespace Sys2Proof.Machine

/-- The sign glyph (R112): `G_POS` if `n ≥ 0`, `G_NEG` if `n < 0`. -/
def signGlyph (n : Int) : Glyph := if 0 ≤ n then .pos else .neg

/-- `ComposeRow` (R114): sign row; shift and add the tens row, only when the tens digit is not 0; shift and add the
ones row; padding shift; low 12 bits. All steps on unbounded naturals (R117, decision D10). -/
def composeRow (c : Config.Shifts) (rom : GlyphRom) (n : Int) (r : Fin 6) : Row :=
  let sign := (glyphRow rom (signGlyph n) r).toNat
  let withTens :=
    if tensDigit n = 0 then sign
    else (sign <<< c.tens) + (glyphRow rom (.digit (tensDigit n)) r).toNat
  let withOnes := (withTens <<< c.ones) + (glyphRow rom (.digit (onesDigit n)) r).toNat
  BitVec.ofNat 12 (withOnes <<< padShift n)

/-- `Compose` (R110, R115): none outside the domain; inside it rows 1 to 6 receive the composed glyph rows 0 to 5
and rows 0 and 7 are 0x000. -/
def compose (c : Config.Shifts) (rom : GlyphRom) (n : Int) : Option Bitmap :=
  if inNumberDomain n then
    some #v[ 0x000,
             composeRow c rom n 0, composeRow c rom n 1, composeRow c rom n 2,
             composeRow c rom n 3, composeRow c rom n 4, composeRow c rom n 5,
             0x000 ]
  else none

/-- The glyphs one lane of `Compose(n)` reads: sign, tens if not suppressed, ones (R118). -/
def composeGlyphs (n : Int) : List Glyph :=
  if tensDigit n = 0 then [signGlyph n, .digit (onesDigit n)]
  else [signGlyph n, .digit (tensDigit n), .digit (onesDigit n)]

/-- The ROM addresses `Compose(n)` reads, lane by lane; none outside the domain (R110, R118). -/
def composeReads (n : Int) : List (Fin 72) :=
  if inNumberDomain n then
    (List.finRange 6).flatMap fun r => (composeGlyphs n).map fun g => romAddress g r
  else []

/-- `ComposeRow` on an accumulator of `w` bits that wraps modulo `2^w` (R117): a description of an implementation. -/
def composeRowWrapping (w : Nat) (c : Config.Shifts) (rom : GlyphRom) (n : Int) (r : Fin 6) : Row :=
  let sign : BitVec w := (glyphRow rom (signGlyph n) r).zeroExtend w
  let withTens :=
    if tensDigit n = 0 then sign
    else (sign <<< c.tens) + (glyphRow rom (.digit (tensDigit n)) r).zeroExtend w
  let withOnes := (withTens <<< c.ones) + (glyphRow rom (.digit (onesDigit n)) r).zeroExtend w
  (withOnes <<< padShift n).truncate 12

end Sys2Proof.Machine
end

