-- ==== Sys2Proof/Syntax.lean ====
section
/-! DEFINITION. The ten commands of 30_encoding.md rule R68, with their operands as rule R67 decodes them. -/

namespace Sys2Proof

/-- One command of the core, one constructor per row of the opcode map (R68). -/
inductive Instr where
  /-- `SETBITMAP r0, …, r7`: `setBitmap(b)` (R132). -/
  | setbitmap (b : Bitmap)
  /-- `RENDERNUM n`: `renderNumber(n)`, `n = sext_12(imm12)` (R133, R67). -/
  | rendernum (n : Int)
  /-- `SETDOT x, y, on`: `setDot(x, y, on)`, `x = sext_5(xf)`, `y = sext_5(yf)` (R134, R67). -/
  | setdot (x y : Int) (on : Bit)
  /-- `SAVE`: `saveSnapshot()` (R135). -/
  | save
  /-- `RESTORE`: `restoreSnapshot()` (R136). -/
  | restore
  /-- `RENDSNAP`: `renderSnapshot()` (R137). -/
  | rendsnap
  /-- `BLINK`: `blink()` (R138). -/
  | blink
  /-- `BLINKINV`: `blinkInvert()` (R139). -/
  | blinkinv
  /-- `CLEAR`: `clear()` (R140). -/
  | clear
  /-- `SETORI u`: `setOrientation(upsideDown)` (R141). -/
  | setori (u : Bit)
  deriving DecidableEq, Repr

end Sys2Proof
end

