-- ==== Sys2Proof/WellFormed.lean ====
section
/-! DEFINITION. Which commands a packet can spell: the operand ranges of 30_encoding.md rule R67. Whether an
operand is in its command's DOMAIN is no matter of form: the command itself decides it (R63, R64, R70). -/

namespace Sys2Proof

/-- `v` is the value of some `w`-bit two's complement field (R12, R67). -/
def fitsSigned (w : Nat) (v : Int) : Bool :=
  decide (-(2 : Int) ^ (w - 1) ≤ v) && decide (v < (2 : Int) ^ (w - 1))

/-- The operands fit the fields of the command's format (R67): `n` in -2048 to 2047, `x` and `y` in -16 to 15. -/
def Instr.wellFormed : Instr → Bool
  | .setbitmap _ => true
  | .rendernum n => fitsSigned 12 n
  | .setdot x y _ => fitsSigned 5 x && fitsSigned 5 y
  | .save => true
  | .restore => true
  | .rendsnap => true
  | .blink => true
  | .blinkinv => true
  | .clear => true
  | .setori _ => true

end Sys2Proof
end

