-- ==== Sys2Proof/Decode.lean ====
section
/-! DEFINITION. The command packet of 30_encoding.md: its fields (R61), operand assembly (R67), the opcode map by
match and mask (R68), and the encoder written from the same formats (R62 to R66). Decoding is total on all 2^144
packets and rejects a reserved packet by name. -/

namespace Sys2Proof

/-! ## The packet -/

/-- `CW = PKT[143:128]`, the command word (R61). -/
def Packet.cw (p : Packet) : Word16 := p.extractLsb' 128 16

/-- `Pi = PKT[127 - 16i : 112 - 16i]`, a payload word (R61). -/
def Packet.payloadWord (p : Packet) (i : Fin 8) : Word16 := p.extractLsb' (112 - 16 * i.val) 16

/-- A packet from its nine words: `CW ‖ P0 ‖ … ‖ P7` (R61). -/
def packetOf (cw : Word16) (pl : Payload) : Packet :=
  cw ++ pl[0] ++ pl[1] ++ pl[2] ++ pl[3] ++ pl[4] ++ pl[5] ++ pl[6] ++ pl[7]

/-- The payload an assembler writes where the format has none: eight zero words (R72). -/
def zeroPayload : Payload := Vector.replicate 8 0

/-! ## Fields and operands -/

/-- `sext_N(v)` (R12): the field read as two's complement. -/
def sext {w : Nat} (v : BitVec w) : Int :=
  if v.msb then (v.toNat : Int) - (2 : Int) ^ w else (v.toNat : Int)

/-- `op = CW[15:12]` (R61). -/
def opField (cw : Word16) : BitVec 4 := cw.extractLsb' 12 4

/-- `arg = CW[11:0]`, which is `imm12` in format N (R61, R63). -/
def argField (cw : Word16) : BitVec 12 := cw.extractLsb' 0 12

/-- `xf = CW[9:5]` of format D (R64). -/
def xField (cw : Word16) : BitVec 5 := cw.extractLsb' 5 5

/-- `yf = CW[4:0]` of format D (R64). -/
def yField (cw : Word16) : BitVec 5 := cw.extractLsb' 0 5

/-- `on = CW[10]` of format D (R64). -/
def onField (cw : Word16) : Bit := cw.getLsbD 10

/-- `u = CW[0]` of format O (R65). -/
def uField (cw : Word16) : Bit := cw.getLsbD 0

/-- A row operand wider than 12 bits keeps its bits 11 to 0: the stray high bits are dropped (R66, R102, R171 (c)). -/
def clampRow (w : Word16) : Row := w.extractLsb' 0 12

/-- Eight row operands, each clamped to 12 bits: `b[i] = Pi[11:0]` (R66, R67). -/
def clampRows (pl : Payload) : Bitmap := Vector.ofFn fun i => clampRow pl[i]

/-- The payload of a packet (R61). -/
def Packet.payload (p : Packet) : Payload := Vector.ofFn fun i => p.payloadWord i

/-! ## The opcode map -/

/-- The name of a row of the opcode map. -/
inductive Opcode where
  | setbitmap | rendernum | setdot | save | restore | rendsnap | blink | blinkinv | clear | setori
  deriving DecidableEq, Repr

/-- One row of the opcode map: the columns `match` and `mask` of R68 (`code` is its `match`). -/
structure OpcodeRow where
  op : Opcode
  code : Word16
  mask : Word16
  deriving DecidableEq, Repr

/-- `CW & mask = match` (R68). -/
def OpcodeRow.spelledBy (r : OpcodeRow) (cw : Word16) : Bool := cw &&& r.mask == r.code

/-- The opcode map, the ten rows of R68 in its order. -/
def opcodeMap : List OpcodeRow :=
  [ ⟨.setbitmap, 0x1000, 0xFFFF⟩,
    ⟨.rendernum, 0x2000, 0xF000⟩,
    ⟨.setdot,    0x3000, 0xF800⟩,
    ⟨.save,      0x4000, 0xFFFF⟩,
    ⟨.restore,   0x5000, 0xFFFF⟩,
    ⟨.rendsnap,  0x6000, 0xFFFF⟩,
    ⟨.blink,     0x7000, 0xFFFF⟩,
    ⟨.blinkinv,  0x8000, 0xFFFF⟩,
    ⟨.clear,     0x9000, 0xFFFF⟩,
    ⟨.setori,    0xA000, 0xFFFE⟩ ]

/-- The row of the opcode map that a command belongs to. -/
def Instr.opcode : Instr → Opcode
  | .setbitmap _ => .setbitmap
  | .rendernum _ => .rendernum
  | .setdot _ _ _ => .setdot
  | .save => .save
  | .restore => .restore
  | .rendsnap => .rendsnap
  | .blink => .blink
  | .blinkinv => .blinkinv
  | .clear => .clear
  | .setori _ => .setori

/-- Operand decode, per format (R67). Only format B reads the payload (R61). -/
def operandsOf (op : Opcode) (p : Packet) : Instr :=
  match op with
  | .setbitmap => .setbitmap (clampRows p.payload)
  | .rendernum => .rendernum (sext (argField p.cw))
  | .setdot => .setdot (sext (xField p.cw)) (sext (yField p.cw)) (onField p.cw)
  | .save => .save
  | .restore => .restore
  | .rendsnap => .rendsnap
  | .blink => .blink
  | .blinkinv => .blinkinv
  | .clear => .clear
  | .setori => .setori (uField p.cw)

/-! ## Decode -/

/-- Why a packet is reserved (R68). A reserved packet is no fault: the core takes it and does nothing (R70). -/
inductive ReservedPacket where
  /-- `op` is 0x0 or 0xB to 0xF: no row of the map has it. -/
  | opcode (op : BitVec 4)
  /-- `op` is a command's, and a must-be-zero bit of its format Z, D, O or B is set. -/
  | mustBeZero (op : BitVec 4)
  deriving DecidableEq, Repr

/-- The name under which a command word that matches no row is rejected (R68). -/
def reservedReason (cw : Word16) : ReservedPacket :=
  if opField cw = 0x0 ∨ 0xB#4 ≤ opField cw then .opcode (opField cw) else .mustBeZero (opField cw)

/-- Decoding (R68): the command of the first (and only) row with `CW & mask = match`, else a rejection by name. -/
def decode (p : Packet) : Except ReservedPacket Instr :=
  match opcodeMap.find? (fun r => r.spelledBy p.cw) with
  | some r => .ok (operandsOf r.op p)
  | none => .error (reservedReason p.cw)

/-! ## Encode -/

/-- The command word of format N (R63, R133). -/
def cwNumber (imm12 : BitVec 12) : Word16 := 0x2#4 ++ imm12

/-- The command word of format D (R64, R134): `op`, bit 11 clear, `on`, `xf`, `yf`. -/
def cwDot (xf yf : BitVec 5) (on : Bit) : Word16 := 0x3#4 ++ 0#1 ++ BitVec.ofBool on ++ xf ++ yf

/-- The command word of format O (R65, R141). -/
def cwOrientation (u : Bit) : Word16 := 0xA#4 ++ 0#11 ++ BitVec.ofBool u

/-- The payload of format B for rows of 12 bits: bits 15 to 12 of each word are 0 (R66). -/
def payloadOfBitmap (b : Bitmap) : Payload := Vector.ofFn fun i => b[i].zeroExtend 16

/-- The packet of a well-formed command (R62 to R66); the payload is 0 for every format but B (R72). -/
def encode : Instr → Packet
  | .setbitmap b => packetOf 0x1000 (payloadOfBitmap b)
  | .rendernum n => packetOf (cwNumber (BitVec.ofInt 12 n)) zeroPayload
  | .setdot x y on => packetOf (cwDot (BitVec.ofInt 5 x) (BitVec.ofInt 5 y) on) zeroPayload
  | .save => packetOf 0x4000 zeroPayload
  | .restore => packetOf 0x5000 zeroPayload
  | .rendsnap => packetOf 0x6000 zeroPayload
  | .blink => packetOf 0x7000 zeroPayload
  | .blinkinv => packetOf 0x8000 zeroPayload
  | .clear => packetOf 0x9000 zeroPayload
  | .setori u => packetOf (cwOrientation u) zeroPayload

/-! ## The opcode table's numbering -/

/-- Word `k` of an instruction whose `nbits` bits are `w`: bit 0 of `w` is the least significant bit of the first
word (`CW`), the later words (`P0` to `P7`) count on from it, and the bits above `nbits` are 0. -/
def tableWord (nbits w k : Nat) : Word16 := BitVec.ofNat 16 ((w % 2 ^ nbits) >>> (16 * k))

/-- The packet of an instruction numbered as the opcode table numbers it (log entry 2). -/
def packetOfTableWord (nbits w : Nat) : Packet :=
  packetOf (tableWord nbits w 0) (Vector.ofFn fun i : Fin 8 => tableWord nbits w (i.val + 1))

/-- The command the decoder reads from an instruction numbered as the opcode table numbers it. -/
def decodeTableWord (nbits w : Nat) : Option Instr :=
  match decode (packetOfTableWord nbits w) with
  | .ok i => some i
  | .error _ => none

end Sys2Proof
end

