-- ==== Sys2Proof/Machine/BitReversal.lean ====
section
/-! DEFINITION. The Bit Reversal Unit (40_bit_reversal.md): `RevRow`, `RevBitmap`, and the swap network of R91 as a
second, faster description of `RevRow`. -/

namespace Sys2Proof.Machine

/-- `RevRow` (R90), as its pseudocode builds it: bit `i` of `v`, where set, goes to bit `11 - i`. -/
def revRow (v : Row) : Row :=
  (List.range 12).foldl (fun out i => if v.getLsbD i then out ||| (1#12 <<< (11 - i)) else out) 0#12

/-- `RevBitmap` (R93): output row `i` is `RevRow` of row `7 - i`. -/
def revBitmap (b : Bitmap) : Bitmap := Vector.ofFn fun i => revRow b[i.rev]

/-- One stage of the network of R91: swap adjacent groups of `k` bits; `m` masks the low group of each pair. -/
def swapStage (k : Nat) (m x : Word16) : Word16 := ((x >>> k) &&& m) ||| ((x &&& m) <<< k)

/-- `RevRowNet` (R91): four swap stages on 16 bits, then the shift that discards the 4 unused low bits. The
constants are the spec's general knowledge GK1 (log entry 10); `revRow` is the definition the commands use. -/
def revRowNet (x : Word16) : Row :=
  let x1 := swapStage 1 0x5555 x
  let x2 := swapStage 2 0x3333 x1
  let x3 := swapStage 4 0x0F0F x2
  let x4 := swapStage 8 0x00FF x3
  (x4 >>> 4).truncate 12

end Sys2Proof.Machine
end

