-- ==== Sys2Proof/Machine/Flags.lean ====
section
/-! DEFINITION. The two one-bit registers that are the flags of this hardware (10_state.md rules R27 and R28). The
core has no carry, zero or overflow flag and no other status or control register (R30, R32). -/

namespace Sys2Proof.Machine

/-- `ORI <- v` (R27, R141): changes no bitmap and emits nothing. -/
def State.writeOri (s : State) (v : Bit) : State := { s with ori := v }

/-- `BLINK <- v` (R28). -/
def State.writeBlink (s : State) (v : Bit) : State := { s with blink := v }

end Sys2Proof.Machine
end

