-- ==== Sys2Proof/Machine/FramePacker.lean ====
section
/-! DEFINITION. The Frame Packer (41_frame_packer.md): `Pack`, `PackInv`, the packer on unmasked row words, and the
test bench's inverse `Unpack`. -/

namespace Sys2Proof.Machine

/-- `Pack` (R100), in slices: the eight rows, row 0 first, as three 32-bit words. -/
def pack (b : Bitmap) : Frame :=
  #v[ b[0] ++ b[1] ++ b[2].extractLsb' 4 8,
      b[2].extractLsb' 0 4 ++ b[3] ++ b[4] ++ b[5].extractLsb' 8 4,
      b[5].extractLsb' 0 8 ++ b[6] ++ b[7] ]

/-- `PackInv` (R104): every bit of all three words complemented. -/
def packInv (b : Bitmap) : Frame := Vector.ofFn fun i => (pack b)[i] ^^^ 0xFFFFFFFF#32

/-- `Pack` of rows carried in 16-bit words, as the pseudocode of R100 computes it: each row is masked to 12 bits, so
stray high bits are dropped (R102). -/
def packWide (w : Payload) : Frame :=
  let r : Fin 8 → Word32 := fun i => w[i].zeroExtend 32 &&& 0xFFF
  #v[ (r 0 <<< 20) ||| (r 1 <<< 8) ||| (r 2 >>> 4),
      ((r 2 &&& 0x00F) <<< 28) ||| (r 3 <<< 16) ||| (r 4 <<< 4) ||| (r 5 >>> 8),
      ((r 5 &&& 0x0FF) <<< 24) ||| (r 6 <<< 12) ||| r 7 ]

/-- `Unpack` (R105 (a)), the inverse of `Pack`: a test bench's helper, not in the hardware. -/
def unpack (f : Frame) : Bitmap :=
  #v[ (f[0] >>> 20).truncate 12,
      (f[0] >>> 8).truncate 12,
      ((f[0] &&& 0xFF) <<< 4 ||| f[1] >>> 28).truncate 12,
      (f[1] >>> 16).truncate 12,
      (f[1] >>> 4).truncate 12,
      ((f[1] &&& 0xF) <<< 8 ||| f[2] >>> 24).truncate 12,
      (f[2] >>> 12).truncate 12,
      f[2].truncate 12 ]

end Sys2Proof.Machine
end

