-- ==== Sys2Proof/Machine/Ops.lean ====
section
/-! DEFINITION. The operations the commands share: the register files' writes, `emit`, `result`, `Render`, `Show`, the
blink toggle (43_display_commands.md), taking a packet, and a reserved packet. There is no exception entry and no
return from one: "There is no trap entry: no state is saved, no mode changes, no vector or handler exists" (R176). -/

namespace Sys2Proof.Machine

/-- `CUR <- b`, all 8 rows (R13, R20). -/
def State.writeCur (s : State) (b : Bitmap) : State := { s with cur := b }

/-- `SAV <- b`, all 8 rows (R13, R21). -/
def State.writeSav (s : State) (b : Bitmap) : State := { s with sav := b }

/-- `emit(F)` (R13, R50): deliver a frame to the Display Sink; it always completes. -/
def State.emit (s : State) (f : Frame) : State := { s with sink := s.sink ++ [f] }

/-- `result(v)` (R13): place a bit on the result port. -/
def State.result (s : State) (v : Bit) : State := { s with res := s.res ++ [v] }

/-- `Render(B)` (R130): `emit(Pack(B))`, no rotation, no register changed. -/
def State.render (s : State) (b : Bitmap) : State := s.emit (pack b)

/-- The bitmap `Show` stores (R131): the operand, or its rotation when `ORI = 1`. The only place `ORI` is read. -/
def State.oriented (s : State) (b : Bitmap) : Bitmap := if s.ori then revBitmap b else b

/-- `Show(B)` (R131): store the oriented bitmap, blink phase off, render what was stored. -/
def State.showBitmap (s : State) (b : Bitmap) : State :=
  let s1 := (s.writeCur (s.oriented b)).writeBlink false
  s1.render s1.cur

/-- The toggle shared by `BLINK` and `BLINKINV` (R138, R139). Off to on: save `CUR`, emit `onFrame`, restore `CUR`
from the snapshot, phase 1, result 1. On to off: render `CUR`, phase 0, result 0. -/
def State.blinkToggle (s : State) (onFrame : Frame) : State :=
  if s.blink then
    ((s.render s.cur).writeBlink false).result false
  else
    let s1 := (s.writeSav s.cur).emit onFrame
    ((s1.writeCur s1.sav).writeBlink true).result true

/-- The `CMD` port takes the packet the host presents next (R53, R60): the packet and the state with it taken; none
while the host presents nothing. -/
def State.takePacket (s : State) : Option (Packet × State) :=
  match s.pending with
  | [] => none
  | p :: rest => some (p, { s with pending := rest })

/-- A reserved packet, rejected by the decoder, is a silent no-op: no state change, no frame, no result (R68). -/
def State.reservedNoOp (s : State) (_why : ReservedPacket) : State := s

/-- With no packet presented the core is idle and holds its state (R183, R149). -/
def State.idle (s : State) : State := s

end Sys2Proof.Machine
end

