-- ==== Sys2Proof/Machine/DisplayCommands.lean ====
section
/-! DEFINITION. The meanings of the ten commands (43_display_commands.md rules R132 to R141), each over the shared
operations. Every one answers a next state, on every operand, in every state (R144). -/

namespace Sys2Proof.Machine

/-- `SETBITMAP b`: `Show(b)` (R132). -/
def execSetbitmap (b : Bitmap) (s : State) : Host.Outcome State Fault Refusal :=
  .next (s.showBitmap b)

/-- `RENDERNUM n`: `Show(Compose(n))` in the domain, a silent no-op outside it (R133). -/
def execRendernum (n : Int) (s : State) : Host.Outcome State Fault Refusal :=
  match compose Config.shifts s.rom n with
  | some b => .next (s.showBitmap b)
  | none => .next s

/-- `SETDOT x, y, on`: in range, set the dot of `CUR` to `on` and render `CUR`, whatever `ORI` and `BLINK` are; out of
range, a silent no-op (R134). -/
def execSetdot (x y : Int) (on : Bit) (s : State) : Host.Outcome State Fault Refusal :=
  match dotCell x y with
  | some cell =>
    let s1 := s.writeCur (bitmapWithDot s.cur cell on)
    .next (s1.render s1.cur)
  | none => .next s

/-- `SAVE`: `SAV <- CUR`, no frame (R135). -/
def execSave (s : State) : Host.Outcome State Fault Refusal :=
  .next (s.writeSav s.cur)

/-- `RESTORE`: `CUR <- SAV`, no frame, no rotation (R136). -/
def execRestore (s : State) : Host.Outcome State Fault Refusal :=
  .next (s.writeCur s.sav)

/-- `RENDSNAP`: `Render(SAV)`, no register changed (R137). -/
def execRendsnap (s : State) : Host.Outcome State Fault Refusal :=
  .next (s.render s.sav)

/-- `BLINK`: the blink toggle whose off-to-on frame is `Pack(BLANK)` (R138). -/
def execBlink (s : State) : Host.Outcome State Fault Refusal :=
  .next (s.blinkToggle (pack blankBitmap))

/-- `BLINKINV`: the blink toggle whose off-to-on frame is `PackInv(CUR)` (R139). -/
def execBlinkinv (s : State) : Host.Outcome State Fault Refusal :=
  .next (s.blinkToggle (packInv s.cur))

/-- `CLEAR`: `Show(BLANK)` (R140). -/
def execClear (s : State) : Host.Outcome State Fault Refusal :=
  .next (s.showBitmap blankBitmap)

/-- `SETORI u`: `ORI <- u`, no frame (R141). -/
def execSetori (u : Bit) (s : State) : Host.Outcome State Fault Refusal :=
  .next (s.writeOri u)

end Sys2Proof.Machine
end

