-- ==== Sys2Proof/Machine/Dispatch.lean ====
section
/-! DEFINITION. The meaning of every command, one arm per constructor of `Instr`. -/

namespace Sys2Proof.Machine

def exec (i : Instr) (s : State) : Host.Outcome State Fault Refusal :=
  match i with
  | .setbitmap b => Sys2Proof.Machine.execSetbitmap b s
  | .rendernum n => Sys2Proof.Machine.execRendernum n s
  | .setdot x y on => Sys2Proof.Machine.execSetdot x y on s
  | .save => Sys2Proof.Machine.execSave s
  | .restore => Sys2Proof.Machine.execRestore s
  | .rendsnap => Sys2Proof.Machine.execRendsnap s
  | .blink => Sys2Proof.Machine.execBlink s
  | .blinkinv => Sys2Proof.Machine.execBlinkinv s
  | .clear => Sys2Proof.Machine.execClear s
  | .setori u => Sys2Proof.Machine.execSetori u s

end Sys2Proof.Machine
end

