-- ==== Sys2Proof/Machine/Step.lean ====
section
/-! DEFINITION. One step of the core: one command, run to completion (20_memory.md R52, 43_display_commands.md R144,
R149). -/

namespace Sys2Proof.Machine

/-- One step: the core takes the packet the host presents, decodes it and runs its command to completion. A reserved
packet is taken and does nothing (R68); with no packet the core is idle (R183). -/
def step (s : State) : Host.Outcome State Fault Refusal :=
  match s.takePacket with
  | none => .next s.idle
  | some (p, s1) =>
    match decode p with
    | .ok i => exec i s1
    | .error why => .next (s1.reservedNoOp why)

/-- The host presents these packets next, in this order, before whatever it would have presented (R149). -/
def State.present (s : State) (ps : List Packet) : State := { s with pending := ps ++ s.pending }

/-- The state in which the next packet presented is the instruction whose `nbits` bits are `w`, numbered as the
opcode table numbers them (log entries 1 and 2). -/
def State.withFetchWord (s : State) (nbits w : Nat) : State := s.present [packetOfTableWord nbits w]

end Sys2Proof.Machine
end

