-- ==== Sys2Proof/Machine/HostRoutines.lean ====
section
/-! DEFINITION. The one pseudo-instruction, `ANIMCLEAR` (43_display_commands.md R142): the host's expansion into 192
`SETDOT` commands. The host's delay between them does not reach the core (R7, R199). -/

namespace Sys2Proof.Machine

/-- The 96 cells `(x, y)` in row-major order: rows outer, columns inner, `x` fastest (R142, GK3). -/
def cellsRowMajor : List (Fin 12 × Fin 8) :=
  (List.finRange 8).flatMap fun y => (List.finRange 12).map fun x => (x, y)

/-- The command that sets the dot at a cell to `on`. -/
def setCell (on : Bit) (cell : Fin 12 × Fin 8) : Instr := .setdot (cell.1.val : Int) (cell.2.val : Int) on

/-- `ANIMCLEAR` (R142): every dot on in row-major order, then every dot off in exactly the reverse order. -/
def animClear : List Instr :=
  cellsRowMajor.map (setCell true) ++ cellsRowMajor.reverse.map (setCell false)

/-- The 192 packets the host presents for `ANIMCLEAR` (R73). -/
def animClearPackets : List Packet := animClear.map encode

end Sys2Proof.Machine
end

