-- ==== Sys2Proof/Safety.lean ====
section
/-! DEFINITION. The terms in which claims about the core are made: pixels of a bitmap and of a frame, what the
display shows, which commands are rejected, a run that never stops, and the invariant of the observed sequences. -/

namespace Sys2Proof.Machine

/-- The dot `(x, y)` of a bitmap: bit `11 - x` of row `y` (R44). -/
def dotAt (b : Bitmap) (x : Fin 12) (y : Fin 8) : Bit := b[y].getLsbD (11 - x.val)

/-- The dot `(x, y)` in a frame (R101): stream index `p = 12y + x`, word `p div 32`, bit `31 - p mod 32`. -/
def frameDotAt (f : Frame) (x : Fin 12) (y : Fin 8) : Bit :=
  (f[(12 * y.val + x.val) / 32]'(by omega)).getLsbD (31 - (12 * y.val + x.val) % 32)

/-- A frame read as one 96-bit number, `word[0] ‖ word[1] ‖ word[2]` (R46, R94 (d)). -/
def frameStream (f : Frame) : BitVec 96 := f[0] ++ f[1] ++ f[2]

/-- `Pack` of the all-zero bitmap (R105 (c)). -/
def darkFrame : Frame := #v[0x00000000, 0x00000000, 0x00000000]

/-- Every dot of the display lit (R105 (c)). -/
def litFrame : Frame := #v[0xFFFFFFFF, 0xFFFFFFFF, 0xFFFFFFFF]

/-- What the display shows: the last frame delivered, before the first one the unknown `SINK_INIT` (R191). -/
def State.shown (s : State) : Frame := s.sink.getLast?.getD Config.sinkInit

/-- The commands that are rejected, a function of the command alone (R171 (a) and (b), R173): a ghost value, no
output of the core. -/
def rejected : Instr → Bool
  | .rendernum n => !(inNumberDomain n)
  | .setdot x y _ => !(decide (DotInRange x y))
  | .setbitmap _ => false
  | .save => false
  | .restore => false
  | .rendsnap => false
  | .blink => false
  | .blinkinv => false
  | .clear => false
  | .setori _ => false

/-- `SignPosBlank` (R43): the positive sign glyph is blank. A premise where a claim needs it, never enforced. -/
def SignPosBlank (rom : GlyphRom) : Prop := ∀ r : Fin 6, glyphRow rom .pos r = 0

/-- A run of `k` steps from `s` ends in `t`: no step stopped. -/
def RunsTo (k : Nat) (s t : State) : Prop := Sys2Proof.core.run k s = .next t

/-- What `SINK`, `RES` and `BLINK` have to do with each other (R138, R139, R144): while the phase is on, the last
result returned is 1; and no result was returned without a frame. -/
def State.ObservationsAgree (s : State) : Prop :=
  (s.blink = true → s.res.getLast? = some true) ∧ s.res.length ≤ s.sink.length

end Sys2Proof.Machine
end

