-- ==== Sys2Proof/Certificates/Slice0/Obligations.lean ====
section
/-! DEFINITION. The statements for the provers. Each docstring names the rule of the spec it formalises, or says that
it is derived; where a clause rests on a decision of the spec (92_eei_decisions.md) the docstring names the decision. -/

open Sys2Proof Sys2Proof.Machine

/-! ## Encoding -/

/-- Decoding the packet of a well-formed command gives the command back (derived from the formats R62 to R66 and the
operand decode R67). -/
def Obligations.DecodeOfEncode : Prop :=
  ∀ i : Instr, i.wellFormed = true → decode (encode i) = .ok i

/-- The other direction (derived from R61 to R68): a packet that decodes is, up to the bits the core ignores, the
packet of the command it decodes to: the same command word, and of the payload, in format B, the low 12 bits of each
word, and nothing in every other format. -/
def Obligations.EncodeOfDecode : Prop :=
  ∀ (p : Packet) (i : Instr), decode p = .ok i →
    i.wellFormed = true ∧ (encode i).cw = p.cw ∧
      ∀ k : Fin 8, (encode i).payloadWord k =
        if i.opcode = .setbitmap then p.payloadWord k &&& 0x0FFF else 0

/-- R61: the places of the command word and of the payload words in the 144 bits of a packet, and that only format B
uses the payload: two packets with one command word, not of format B, spell the same command. -/
def Obligations.PacketLayoutAndIgnoredPayload : Prop :=
  (∀ (p : Packet) (j : Fin 16), p.cw.getLsbD j = p.getLsbD (128 + j) ∧
    (opField p.cw).getLsbD j = (decide (j.val < 4) && p.getLsbD (140 + j)) ∧
    (argField p.cw).getLsbD j = (decide (j.val < 12) && p.getLsbD (128 + j))) ∧
  (∀ (p : Packet) (i : Fin 8) (j : Fin 16), (p.payloadWord i).getLsbD j = p.getLsbD (112 - 16 * i.val + j)) ∧
  (∀ (cw : Word16) (pl : Payload), (packetOf cw pl).cw = cw ∧ ∀ i : Fin 8, (packetOf cw pl).payloadWord i = pl[i]) ∧
  (∀ (cw : Word16) (pl pl' : Payload), cw ≠ 0x1000 → decode (packetOf cw pl) = decode (packetOf cw pl'))

/-- R66: format B. Row `i` of the operand is `Pi[11:0]`; the bits 15 to 12 of the payload words are dropped, whatever
their value; a command word with `op = 0x1` and any of bits 11 to 0 set is reserved. -/
def Obligations.FormatBRowsAndStrayBits : Prop :=
  (∀ pl : Payload, ∃ b : Bitmap, decode (packetOf 0x1000 pl) = .ok (.setbitmap b) ∧
    ∀ (i : Fin 8) (j : Fin 12), b[i].getLsbD j = pl[i].getLsbD j) ∧
  (∀ pl pl' : Payload, (∀ i : Fin 8, pl[i] &&& 0x0FFF = pl'[i] &&& 0x0FFF) →
    decode (packetOf 0x1000 pl) = decode (packetOf 0x1000 pl')) ∧
  (∀ (arg : BitVec 12) (pl : Payload), arg ≠ 0 →
    ∃ why, decode (packetOf (0x1#4 ++ arg) pl) = .error why)

/-- R67: the operands of every format, `n`, `x` and `y` read as two's complement, on every value of the fields and
every payload. -/
def Obligations.OperandsPerFormat : Prop :=
  (∀ (imm : BitVec 12) (pl : Payload),
    decode (packetOf (0x2000 ||| imm.zeroExtend 16) pl) = .ok (.rendernum imm.toInt) ∧
      -2048 ≤ imm.toInt ∧ imm.toInt ≤ 2047) ∧
  (∀ (on : Bit) (xf yf : BitVec 5) (pl : Payload),
    decode (packetOf (0x3000 ||| (BitVec.ofBool on).zeroExtend 16 <<< 10 ||| xf.zeroExtend 16 <<< 5 |||
      yf.zeroExtend 16) pl) = .ok (.setdot xf.toInt yf.toInt on) ∧
      -16 ≤ xf.toInt ∧ xf.toInt ≤ 15 ∧ -16 ≤ yf.toInt ∧ yf.toInt ≤ 15) ∧
  (∀ (u : Bit) (pl : Payload), decode (packetOf (0xA000 ||| (BitVec.ofBool u).zeroExtend 16) pl) = .ok (.setori u)) ∧
  (∀ pl : Payload, ∃ b : Bitmap, decode (packetOf 0x1000 pl) = .ok (.setbitmap b) ∧
    ∀ i : Fin 8, b[i] = pl[i].truncate 12) ∧
  (∀ pl : Payload,
    decode (packetOf 0x4000 pl) = .ok .save ∧ decode (packetOf 0x5000 pl) = .ok .restore ∧
    decode (packetOf 0x6000 pl) = .ok .rendsnap ∧ decode (packetOf 0x7000 pl) = .ok .blink ∧
    decode (packetOf 0x8000 pl) = .ok .blinkinv ∧ decode (packetOf 0x9000 pl) = .ok .clear)

/-- R68: the opcode map, its ten rows written out here as `(command, match, mask)`. A packet with
`CW & mask = match` spells that row's command; no packet matches two rows; a packet matches no row exactly when its
`op` is 0x0 or 0xB to 0xF, or a must-be-zero bit is set in a format Z, D, O or B command word; and the core takes such
a reserved packet without changing any state, frame or result (decision D3). -/
def Obligations.OpcodeMapAndReservedPackets : Prop :=
  let rows : List (Opcode × Word16 × Word16) :=
    [(.setbitmap, 0x1000, 0xFFFF), (.rendernum, 0x2000, 0xF000), (.setdot, 0x3000, 0xF800), (.save, 0x4000, 0xFFFF),
     (.restore, 0x5000, 0xFFFF), (.rendsnap, 0x6000, 0xFFFF), (.blink, 0x7000, 0xFFFF), (.blinkinv, 0x8000, 0xFFFF),
     (.clear, 0x9000, 0xFFFF), (.setori, 0xA000, 0xFFFE)]
  (∀ (p : Packet) (row : Opcode × Word16 × Word16), row ∈ rows → p.cw &&& row.2.2 = row.2.1 →
    ∃ i, decode p = .ok i ∧ i.opcode = row.1) ∧
  (∀ (cw : Word16) (row row' : Opcode × Word16 × Word16), row ∈ rows → row' ∈ rows →
    cw &&& row.2.2 = row.2.1 → cw &&& row'.2.2 = row'.2.1 → row = row') ∧
  (∀ cw : Word16,
    (∀ row ∈ rows, cw &&& row.2.2 ≠ row.2.1) ↔
      (opField cw = 0x0 ∨ 0xB ≤ (opField cw).toNat ∨
        (opField cw = 0x3 ∧ cw.getLsbD 11 = true) ∨
        (opField cw = 0xA ∧ argField cw &&& 0xFFE ≠ 0) ∨
        (opField cw ∈ [0x1#4, 0x4#4, 0x5#4, 0x6#4, 0x7#4, 0x8#4, 0x9#4] ∧ argField cw ≠ 0))) ∧
  (∀ (s : State) (p : Packet) (rest : List Packet), (∀ row ∈ rows, p.cw &&& row.2.2 ≠ row.2.1) →
    s.pending = p :: rest → step s = .next { s with pending := rest })

/-- Twelve command words written out in 30_encoding.md (R74, which the spec marks as derived) decode as it says. They
are numbered as `decodeTableWord` numbers them, which is the model's choice, log entry 2: in the 144-bit clause `CW` lies
in the lowest bits and `P0` in bits 31 to 16, the reverse of the order of R61. -/
def Obligations.WrittenOutWordsDecode : Prop :=
  decodeTableWord 16 0x2007 = some (.rendernum 7) ∧ decodeTableWord 16 0x2FFB = some (.rendernum (-5)) ∧
  decodeTableWord 16 0x2F9D = some (.rendernum (-99)) ∧ decodeTableWord 16 0x3567 = some (.setdot 11 7 true) ∧
  decodeTableWord 16 0x3167 = some (.setdot 11 7 false) ∧ decodeTableWord 16 0x37E0 = some (.setdot (-1) 0 true) ∧
  decodeTableWord 16 0x8000 = some .blinkinv ∧ decodeTableWord 16 0xA001 = some (.setori true) ∧
  decodeTableWord 144 0x08001000 = some (.setbitmap #v[0x800, 0, 0, 0, 0, 0, 0, 0]) ∧
  decodeTableWord 16 0x3C00 = none ∧ decodeTableWord 16 0xA002 = none ∧ decodeTableWord 16 0x1001 = none

/-! ## The step and whole runs -/

/-- When the packet the host presents next decodes to a command, the step takes the packet and runs that command on
the state (derived from R52, R60 and R144). -/
def Obligations.StepRunsTheDecodedCommand : Prop :=
  ∀ (s : State) (p : Packet) (rest : List Packet) (i : Instr), s.pending = p :: rest → decode p = .ok i →
    step s = exec i { s with pending := rest }

/-- With no packet presented the core is idle and holds its state (derived from R183 and R149; that the model's step
may be taken at all without a packet is log entry 1's choice). -/
def Obligations.IdleCoreHoldsItsState : Prop :=
  ∀ s : State, s.pending = [] → step s = .next s

/-- R170: no operation raises an error. Every run of any length from any state goes on, and the out-of-range number
and the out-of-range coordinates are silently ignored, preserving the prior state. -/
def Obligations.NoOperationRaisesAnError : Prop :=
  (∀ (k : Nat) (s : State), ∃ t, RunsTo k s t) ∧
  (∀ (n : Int) (s : State), n < -99 ∨ 99 < n → exec (.rendernum n) s = .next s) ∧
  (∀ (x y : Int) (on : Bit) (s : State), x < 0 ∨ 11 < x ∨ y < 0 ∨ 7 < y → exec (.setdot x y on) s = .next s)

/-- How many frames and results each command adds, a function of the command alone (derived: R144 and R173 are marked
by the spec as derived; the count for `BLINKINV` rests on decision D15). -/
def Obligations.FramesAndResultsPerCommand : Prop :=
  ∀ (i : Instr) (s t : State), exec i s = .next t →
    (∃ fs, t.sink = s.sink ++ fs ∧
      fs.length = match i with
        | .save => 0
        | .restore => 0
        | .setori _ => 0
        | .rendernum n => if -99 ≤ n ∧ n ≤ 99 then 1 else 0
        | .setdot x y _ => if 0 ≤ x ∧ x < 12 ∧ 0 ≤ y ∧ y < 8 then 1 else 0
        | .setbitmap _ => 1
        | .rendsnap => 1
        | .blink => 1
        | .blinkinv => 1
        | .clear => 1) ∧
    (∃ rs, t.res = s.res ++ rs ∧
      rs = match i with
        | .blink => [t.blink]
        | .blinkinv => [t.blink]
        | .setbitmap _ => []
        | .rendernum _ => []
        | .setdot _ _ _ => []
        | .save => []
        | .restore => []
        | .rendsnap => []
        | .clear => []
        | .setori _ => [])

/-- The glyph ROM is constant for the life of the core: no run of any length changes it (derived from R42 and R55; the
spec gives no write). -/
def Obligations.RomIsConstant : Prop :=
  ∀ (k : Nat) (s t : State), RunsTo k s t → t.rom = s.rom

/-- The state after reset (derived from R34, R190 and R191): the bitmaps are zero, orientation and blink phase 0 (R34;
the value of `BLINK` is decision D7), `SINK` and `RES` are empty (R190; decision D8). Two clauses rest on the model's own
choices: that the ROM is the constant `Config.glyphRom` (log entry 3), and that the display then shows the constant
`Config.sinkInit`, the unknown `SINK_INIT` of R191 (log entry 6). -/
def Obligations.StateAfterReset : Prop :=
  (∀ i : Fin 8, State.reset.cur[i] = 0x000 ∧ State.reset.sav[i] = 0x000 ∧ blankBitmap[i] = 0x000) ∧
  State.reset.ori = false ∧ State.reset.blink = false ∧ State.reset.rom = Config.glyphRom ∧
  State.reset.sink = [] ∧ State.reset.res = [] ∧ State.reset.shown = Config.sinkInit

/-- A run takes the packets in the order the host presents them and only ever adds to `SINK` and `RES`: at most one
frame a packet, and no result without a frame (derived from R52, R144 and R149). That a run may take more steps than
there are packets, so that `drop k` goes past the end, is the model's choice, the idle step of log entry 1. -/
def Obligations.RunsOnlyAppendObservations : Prop :=
  ∀ (k : Nat) (s t : State), RunsTo k s t →
    t.pending = s.pending.drop k ∧
    ∃ (fs : List Frame) (rs : List Bit), t.sink = s.sink ++ fs ∧ t.res = s.res ++ rs ∧
      fs.length ≤ k ∧ fs.length ≤ s.pending.length ∧ rs.length ≤ fs.length

/-- Every step keeps the agreement of `BLINK` with the results returned, in every state that has it: while the phase
is on the last result is 1, and no result came without a frame (derived from R138, R139, R144 and R145; that
`BLINKINV` returns a result is decision D15). -/
def Obligations.StepKeepsObservationsAgree : Prop :=
  ∀ s t : State, s.ObservationsAgree → step s = .next t → t.ObservationsAgree

/-- The state after reset has that agreement (derived from R34 and R190). -/
def Obligations.ResetObservationsAgree : Prop :=
  State.reset.ObservationsAgree

/-! ## The function units -/

/-- R90: bit `i` of `RevRow(v)` is bit `11 - i` of `v`. -/
def Obligations.RevRowMirrorsEveryBit : Prop :=
  ∀ (v : Row) (i : Fin 12), (revRow v).getLsbD i = v.getLsbD (11 - i.val)

/-- The swap network on 16 bits computes `RevRow` of the low 12 bits; bits 15 to 12 have no effect (R91, marked by the
spec as derived, its constants as general knowledge: log entry 10). -/
def Obligations.SwapNetworkComputesRevRow : Prop :=
  ∀ x : Word16, revRowNet x = revRow (x.truncate 12)

/-- The laws (a) to (d) of `RevRow` that 40_bit_reversal.md gives under R92, all but the first marked as derived: it is
an involution, hence a bijection; it distributes over the bitwise operators; a single bit moves to the mirrored column. -/
def Obligations.RevRowLaws : Prop :=
  (∀ v : Row, revRow (revRow v) = v) ∧ Function.Bijective revRow ∧
  (∀ a b : Row, revRow (a ||| b) = revRow a ||| revRow b ∧ revRow (a &&& b) = revRow a &&& revRow b ∧
    revRow (a ^^^ b) = revRow a ^^^ revRow b ∧ revRow (~~~a) = ~~~(revRow a)) ∧
  (∀ j : Fin 12, revRow (1#12 <<< j.val) = 1#12 <<< (11 - j.val))

/-- R93: row `i` of `RevBitmap(b)` is `RevRow` of row `7 - i`, that is bit `j` of row `i` is bit `11 - j` of row
`7 - i`. -/
def Obligations.RevBitmapReversesRowsAndBits : Prop :=
  ∀ (b : Bitmap) (i : Fin 8), (revBitmap b)[i] = revRow b[7 - i.val] ∧
    ∀ j : Fin 12, (revBitmap b)[i].getLsbD j = b[7 - i.val].getLsbD (11 - j.val)

/-- `RevBitmap` is a rotation by 180 degrees: twice is the identity, and the dot at `(x, y)` is the dot at
`(11 - x, 7 - y)` of the operand (R94 (a) and (b), the latter marked by the spec as derived). -/
def Obligations.RevBitmapRotatesEveryDot : Prop :=
  (∀ b : Bitmap, revBitmap (revBitmap b) = b) ∧
  (∀ (b : Bitmap) (x : Fin 12) (y : Fin 8), dotAt (revBitmap b) x y = dotAt b x.rev y.rev)

/-- The frame of the rotated bitmap is the 96-bit stream of the frame read backwards (R94 (d), marked as derived). -/
def Obligations.RotatedFrameIsTheReversedStream : Prop :=
  ∀ (b : Bitmap) (p : Fin 96),
    (frameStream (pack (revBitmap b))).getLsbD p = (frameStream (pack b)).getLsbD (95 - p.val)

/-- R100: `Pack` is the concatenation of the eight rows, row 0 first, cut into three 32-bit words; and it is what the
rule's shift-and-or pseudocode computes. -/
def Obligations.PackIsTheCutConcatenation : Prop :=
  ∀ b : Bitmap,
    let S : BitVec 96 := b[0] ++ b[1] ++ b[2] ++ b[3] ++ b[4] ++ b[5] ++ b[6] ++ b[7]
    pack b = #v[S.extractLsb' 64 32, S.extractLsb' 32 32, S.extractLsb' 0 32] ∧
    pack b = packWide (payloadOfBitmap b)

/-- Every dot has its place in the frame: stream index `12y + x`, word `p div 32`, bit `31 - p mod 32` (R101, marked by
the spec as derived). -/
def Obligations.FrameShowsEveryDot : Prop :=
  ∀ (b : Bitmap) (x : Fin 12) (y : Fin 8), frameDotAt (pack b) x y = dotAt b x y

/-- R102: rows wider than 12 bits are masked before packing; their higher bits change no bit of any word. -/
def Obligations.StrayRowBitsDoNotReachTheFrame : Prop :=
  (∀ w : Payload, packWide w = pack (clampRows w)) ∧
  (∀ w w' : Payload, (∀ i : Fin 8, w[i] &&& 0xFFF = w'[i] &&& 0xFFF) → packWide w = packWide w')

/-- R104: `PackInv` is `Pack` with every bit of all three words complemented; the complement is taken after the rows
are masked, so that stray high bits of a row carried in a wider word have no effect. -/
def Obligations.PackInvComplementsEveryBit : Prop :=
  (∀ (b : Bitmap) (k : Fin 3) (j : Fin 32), (packInv b)[k].getLsbD j = !((pack b)[k].getLsbD j)) ∧
  (∀ (w : Payload) (k : Fin 3) (j : Fin 32), (packInv (clampRows w))[k].getLsbD j = !((packWide w)[k].getLsbD j))

/-- `PackInv` of a bitmap is `Pack` of the bitmap with every row complemented (R104's equivalent form, marked by the
spec as derived). -/
def Obligations.PackInvIsPackOfTheComplement : Prop :=
  ∀ b b' : Bitmap, (∀ i : Fin 8, b'[i] = ~~~b[i]) → packInv b = pack b'

/-- `Pack` is a bijection between bitmaps and frames, with the inverse the spec writes out (R105 (a), marked as
derived). -/
def Obligations.PackAndUnpackAreInverse : Prop :=
  (∀ b : Bitmap, unpack (pack b) = b) ∧ (∀ f : Frame, pack (unpack f) = f)

/-- R110: outside -99 to 99 `Compose` returns none, reads no ROM word, and the command is a no-op; inside, it returns a
bitmap, for every ROM and every shift distance. -/
def Obligations.ComposeDomain : Prop :=
  (∀ (c : Config.Shifts) (rom : GlyphRom) (n : Int), n < -99 ∨ 99 < n →
    compose c rom n = none ∧ composeReads n = []) ∧
  (∀ (n : Int) (s : State), n < -99 ∨ 99 < n → exec (.rendernum n) s = .next s) ∧
  (∀ (c : Config.Shifts) (rom : GlyphRom) (n : Int), -99 ≤ n → n ≤ 99 → ∃ b, compose c rom n = some b)

/-- The rows of `Compose(n)` in closed form, with the normative shifts, over the ROM's addresses: `S` at 60 + r or
66 + r, `T` at 6t + r, `O` at 6o + r; `(4S + 2T + O) × 2^pad` or `(2S + O) × 2^pad` modulo 4096; rows 0 and 7 zero (the
closed form of R114, marked by the spec as derived, with R111 to R113, R115 and R41; R111 rests on general knowledge
GK2, R112 on decision D11). -/
def Obligations.ComposeClosedForm : Prop :=
  ∀ (rom : GlyphRom) (n : Int), -99 ≤ n → n ≤ 99 →
    let t := n.natAbs / 10
    let o := n.natAbs % 10
    let pad := (if 0 ≤ n then 1 else 0) + (if t = 0 then 3 else 0)
    ∃ b, compose Config.shifts rom n = some b ∧ b[0] = 0x000 ∧ b[7] = 0x000 ∧
      ∀ r : Fin 6, ∃ (sign tens ones : Row),
        rom[(if 0 ≤ n then 60 else 66) + r.val]? = some sign ∧ rom[6 * t + r.val]? = some tens ∧
        rom[6 * o + r.val]? = some ones ∧
        b[1 + r.val].toNat =
          ((if t = 0 then 2 * sign.toNat + ones.toNat else 4 * sign.toNat + 2 * tens.toNat + ones.toNat) * 2 ^ pad) % 4096

/-- The four cases of the padding shift: 0 for -99 to -10, 1 for 10 to 99, 3 for -9 to -1, 4 for 0 to 9 (R113). -/
def Obligations.PadShiftCases : Prop :=
  ∀ n : Int,
    (-99 ≤ n → n ≤ -10 → padShift n = 0) ∧ (10 ≤ n → n ≤ 99 → padShift n = 1) ∧
    (-9 ≤ n → n ≤ -1 → padShift n = 3) ∧ (0 ≤ n → n ≤ 9 → padShift n = 4)

/-- An accumulator of any width of 12 bits or more, wrapping, gives the same row as exact arithmetic (R117; this
sentence is marked by the spec as derived). -/
def Obligations.WrappingAccumulatorIsExact : Prop :=
  ∀ (w : Nat) (c : Config.Shifts) (rom : GlyphRom) (n : Int) (r : Fin 6), 12 ≤ w →
    composeRowWrapping w c rom n r = composeRow c rom n r

/-- `Compose(n)` depends on the ROM only through the addresses it reads: 12 of them when the tens digit is 0, 18
otherwise; and each row only on that row of its glyphs (R118 and the last clause of R119, marked as derived). -/
def Obligations.ComposeReadsOnlyItsAddresses : Prop :=
  (∀ (c : Config.Shifts) (rom rom' : GlyphRom) (n : Int),
    (∀ a ∈ composeReads n, rom[a] = rom'[a]) → compose c rom n = compose c rom' n) ∧
  (∀ n : Int, -99 ≤ n → n ≤ 99 → (composeReads n).length = if n.natAbs < 10 then 12 else 18) ∧
  (∀ (n : Int) (a : Fin 72), -99 ≤ n → n ≤ 99 → (a ∈ composeReads n ↔ ∃ r : Fin 6,
    a.val = (if 0 ≤ n then 60 else 66) + r.val ∨ (10 ≤ n.natAbs ∧ a.val = 6 * (n.natAbs / 10) + r.val) ∨
      a.val = 6 * (n.natAbs % 10) + r.val)) ∧
  (∀ (c : Config.Shifts) (rom rom' : GlyphRom) (n : Int) (r : Fin 6),
    (∀ g : Fin 12, rom[6 * g.val + r.val] = rom'[6 * g.val + r.val]) → composeRow c rom n r = composeRow c rom' n r)

/-- `n` and `-n` differ only in the sign glyph and the padding: with equal sign glyphs the positive number's rows are
the negative one's shifted one bit further left (R120, the general sentence; the formula is marked as derived). -/
def Obligations.NegatedNumberIsShiftedOneLess : Prop :=
  ∀ (c : Config.Shifts) (rom : GlyphRom) (a : Nat) (r : Fin 6), 1 ≤ a → a ≤ 99 →
    (∀ q : Fin 6, glyphRow rom .pos q = glyphRow rom .neg q) →
    composeRow c rom (a : Int) r = composeRow c rom (-(a : Int)) r <<< 1

/-- `RENDERNUM 7` leaves in `CUR` the 7 glyph shifted left by 4, no sign, between blank rows 0 and 7, in every state with
the orientation upright and a blank positive sign glyph (R121, marked as derived, with R133; `SignPosBlank` is its
premise). It is one instance of `ComposeClosedForm` and `RendernumShowsTheNumber` and says nothing of the frame. -/
def Obligations.SevenIsTheGlyphShiftedByFour : Prop :=
  ∀ s : State, s.ori = false → SignPosBlank s.rom →
    ∃ t, exec (.rendernum 7) s = .next t ∧ t.cur[0] = 0x000 ∧ t.cur[7] = 0x000 ∧
      ∀ r : Fin 6, t.cur[1 + r.val] = s.rom[42 + r.val] <<< 4

/-! ## The ten commands: what each does, with everything else unchanged -/

/-- R132: `SETBITMAP` stores the bitmap, or its rotation when `ORI = 1`, clears the blink phase and emits exactly one
frame, `Pack` of the new `CUR`; nothing else changes. -/
def Obligations.SetbitmapShowsTheBitmap : Prop :=
  (∀ (b : Bitmap) (s : State), s.ori = false → exec (.setbitmap b) s =
    .next { s with cur := b, blink := false, sink := s.sink ++ [pack b] }) ∧
  (∀ (b : Bitmap) (s : State), s.ori = true → exec (.setbitmap b) s =
    .next { s with cur := revBitmap b, blink := false, sink := s.sink ++ [pack (revBitmap b)] }) ∧
  (∀ pl : Payload, decode (packetOf 0x1000 pl) = .ok (.setbitmap (clampRows pl)))

/-- R133: `RENDERNUM` in the domain shows the composed bitmap, or its rotation when `ORI = 1`, clears the blink phase
and emits one frame; outside the domain nothing changes. Format N spells it. -/
def Obligations.RendernumShowsTheNumber : Prop :=
  (∀ (n : Int) (s : State), -99 ≤ n → n ≤ 99 → ∃ b, compose Config.shifts s.rom n = some b ∧
    (s.ori = false → exec (.rendernum n) s =
      .next { s with cur := b, blink := false, sink := s.sink ++ [pack b] }) ∧
    (s.ori = true → exec (.rendernum n) s =
      .next { s with cur := revBitmap b, blink := false, sink := s.sink ++ [pack (revBitmap b)] })) ∧
  (∀ (n : Int) (s : State), n < -99 ∨ 99 < n → exec (.rendernum n) s = .next s) ∧
  (∀ (imm : BitVec 12) (pl : Payload),
    decode (packetOf (0x2000 ||| imm.zeroExtend 16) pl) = .ok (.rendernum imm.toInt))

/-- R134: `SETDOT` in range gives the dot `(x, y)` of `CUR`, and no other, the value `on`, whatever `ORI` and `BLINK`
are (decisions D13, D14), and emits `Pack` of the new `CUR`; out of range nothing changes. Format D spells it. -/
def Obligations.SetdotSetsExactlyOneDot : Prop :=
  (∀ (x : Fin 12) (y : Fin 8) (on : Bit) (s : State), ∃ b : Bitmap,
    exec (.setdot (x.val : Int) (y.val : Int) on) s = .next { s with cur := b, sink := s.sink ++ [pack b] } ∧
    (∀ (x' : Fin 12) (y' : Fin 8), dotAt b x' y' = if x' = x ∧ y' = y then on else dotAt s.cur x' y') ∧
    (∀ i : Fin 8, b[i] = if i = y then (if on then s.cur[i] ||| 1#12 <<< (11 - x.val)
      else s.cur[i] &&& ~~~(1#12 <<< (11 - x.val))) else s.cur[i])) ∧
  (∀ (x y : Int) (on : Bit) (s : State), ¬ (0 ≤ x ∧ x ≤ 11 ∧ 0 ≤ y ∧ y ≤ 7) → exec (.setdot x y on) s = .next s) ∧
  (∀ (on : Bit) (xf yf : BitVec 5) (pl : Payload),
    decode (packetOf (0x3000 ||| (BitVec.ofBool on).zeroExtend 16 <<< 10 ||| xf.zeroExtend 16 <<< 5 |||
      yf.zeroExtend 16) pl) = .ok (.setdot xf.toInt yf.toInt on))

/-- R135: `SAVE` copies `CUR` into `SAV` and changes nothing else (that it keeps `BLINK` is decision D13). -/
def Obligations.SaveCopiesCurIntoSav : Prop :=
  (∀ s : State, exec .save s = .next { s with sav := s.cur }) ∧
  (∀ pl : Payload, decode (packetOf 0x4000 pl) = .ok .save)

/-- R136: `RESTORE` copies `SAV` into `CUR` and changes nothing else: no frame, no rotation (that it keeps `BLINK` is
decision D13). -/
def Obligations.RestoreCopiesSavIntoCur : Prop :=
  (∀ s : State, exec .restore s = .next { s with cur := s.sav }) ∧
  (∀ pl : Payload, decode (packetOf 0x5000 pl) = .ok .restore)

/-- R137: `RENDSNAP` emits exactly one frame, `Pack(SAV)`, and writes no register (decisions D13, D14). -/
def Obligations.RendsnapEmitsTheSnapshot : Prop :=
  (∀ s : State, exec .rendsnap s = .next { s with sink := s.sink ++ [pack s.sav] }) ∧
  (∀ pl : Payload, decode (packetOf 0x6000 pl) = .ok .rendsnap)

/-- R138: `BLINK`. Off to on: `SAV` receives `CUR`, phase 1, the zero frame, result 1. On to off: no bitmap changes,
phase 0, frame `Pack(CUR)`, result 0 (that nothing is copied back is decision D27, that nothing is rotated D14). -/
def Obligations.BlinkTogglesThePhase : Prop :=
  (∀ s : State, s.blink = false → exec .blink s =
    .next { s with sav := s.cur, blink := true, sink := s.sink ++ [#v[0x00000000, 0x00000000, 0x00000000]],
                   res := s.res ++ [true] }) ∧
  (∀ s : State, s.blink = true → exec .blink s =
    .next { s with blink := false, sink := s.sink ++ [pack s.cur], res := s.res ++ [false] }) ∧
  (∀ pl : Payload, decode (packetOf 0x7000 pl) = .ok .blink)

/-- R139: `BLINKINV`. Off to on: `SAV` receives `CUR`, phase 1, the frame of `CUR` with every bit complemented, result
1. On to off: phase 0, frame `Pack(CUR)`, result 0 (the snapshot and the result are decision D15, the shared phase
D16). -/
def Obligations.BlinkinvTogglesThePhase : Prop :=
  (∀ s : State, s.blink = false → exec .blinkinv s =
    .next { s with sav := s.cur, blink := true,
                   sink := s.sink ++ [#v[~~~(pack s.cur)[0], ~~~(pack s.cur)[1], ~~~(pack s.cur)[2]]],
                   res := s.res ++ [true] }) ∧
  (∀ s : State, s.blink = true → exec .blinkinv s =
    .next { s with blink := false, sink := s.sink ++ [pack s.cur], res := s.res ++ [false] }) ∧
  (∀ pl : Payload, decode (packetOf 0x8000 pl) = .ok .blinkinv)

/-- R140: `CLEAR` writes `BLANK` into `CUR`, in either orientation, clears the blink phase and emits exactly one frame,
the zero frame (its effect on `CUR` and `BLINK` is decision D12). -/
def Obligations.ClearShowsTheBlankBitmap : Prop :=
  (∀ s : State, ∃ b : Bitmap, (∀ i : Fin 8, b[i] = 0x000) ∧
    exec .clear s =
      .next { s with cur := b, blink := false, sink := s.sink ++ [#v[0x00000000, 0x00000000, 0x00000000]] }) ∧
  (∀ pl : Payload, decode (packetOf 0x9000 pl) = .ok .clear)

/-- R141: `SETORI` writes `ORI` and changes nothing else: no bitmap, no frame (that it keeps `BLINK` is decision D13). -/
def Obligations.SetoriWritesOnlyTheFlag : Prop :=
  (∀ (u : Bit) (s : State), exec (.setori u) s = .next { s with ori := u }) ∧
  (∀ (u : Bit) (pl : Payload), decode (packetOf (0xA000 ||| (BitVec.ofBool u).zeroExtend 16) pl) = .ok (.setori u))

/-! ## Rules about the whole machine -/

/-- `ORI` is written only by `SETORI`, with the value of its operand (derived from R27). -/
def Obligations.OriWrittenOnlyBySetori : Prop :=
  ∀ s t : State, step s = .next t → t.ori ≠ s.ori →
    ∃ p rest, s.pending = p :: rest ∧ decode p = .ok (.setori t.ori)

/-- `SAV` changes only by `SAVE` and by the off-to-on transition of a blink command, and then it receives `CUR`
(derived from R21 and R196; for `BLINKINV` decision D15). -/
def Obligations.SavChangesOnlyBySaveAndBlink : Prop :=
  ∀ s t : State, step s = .next t → t.sav ≠ s.sav →
    t.sav = s.cur ∧ ∃ p rest, s.pending = p :: rest ∧
      (decode p = .ok .save ∨ (s.blink = false ∧ (decode p = .ok .blink ∨ decode p = .ok .blinkinv)))

/-- `CUR` changes only by `SETBITMAP`, `RENDERNUM` in range, `SETDOT` in range, `RESTORE` and `CLEAR` (derived from
R20; for `CLEAR` decision D12). -/
def Obligations.CurChangesOnlyByFiveCommands : Prop :=
  ∀ s t : State, step s = .next t → t.cur ≠ s.cur →
    ∃ p rest, s.pending = p :: rest ∧
      ((∃ b, decode p = .ok (.setbitmap b)) ∨ (∃ n, decode p = .ok (.rendernum n) ∧ -99 ≤ n ∧ n ≤ 99) ∨
        (∃ x y on, decode p = .ok (.setdot x y on) ∧ 0 ≤ x ∧ x ≤ 11 ∧ 0 ≤ y ∧ y ≤ 7) ∨
        decode p = .ok .restore ∨ decode p = .ok .clear)

/-- The blink state machine: which commands toggle the phase, which clear it, which leave it (R145, marked as derived;
decisions D12 for `CLEAR`, D13 for the commands that leave it, D16 for the one shared phase). -/
def Obligations.BlinkPhaseAfterEachCommand : Prop :=
  ∀ (i : Instr) (s t : State), exec i s = .next t →
    t.blink = match i with
      | .blink => !s.blink
      | .blinkinv => !s.blink
      | .setbitmap _ => false
      | .clear => false
      | .rendernum n => if -99 ≤ n ∧ n ≤ 99 then false else s.blink
      | .setdot _ _ _ => s.blink
      | .save => s.blink
      | .restore => s.blink
      | .rendsnap => s.blink
      | .setori _ => s.blink

/-- `ORI` is read only by `Show`: every command but `SETBITMAP` and in-range `RENDERNUM` does the same whatever `ORI`
is, `CLEAR` too, because the rotation of `BLANK` is `BLANK` (derived from R27, R131 and R195; decision D14). -/
def Obligations.OrientationReadOnlyByShow : Prop :=
  ∀ (i : Instr) (s t : State) (v : Bit), exec i s = .next t →
    match i with
    | .setbitmap _ => True
    | .rendernum n => n < -99 ∨ 99 < n → exec i { s with ori := v } = .next { t with ori := v }
    | .setori _ => exec i { s with ori := v } = .next t
    | .setdot _ _ _ => exec i { s with ori := v } = .next { t with ori := v }
    | .save => exec i { s with ori := v } = .next { t with ori := v }
    | .restore => exec i { s with ori := v } = .next { t with ori := v }
    | .rendsnap => exec i { s with ori := v } = .next { t with ori := v }
    | .blink => exec i { s with ori := v } = .next { t with ori := v }
    | .blinkinv => exec i { s with ori := v } = .next { t with ori := v }
    | .clear => exec i { s with ori := v } = .next { t with ori := v }

/-- `SAV` is read only by `RESTORE` and `RENDSNAP`: every other command leaves the same `CUR`, `ORI`, `BLINK`, frames and
results whatever `SAV` is, the on-to-off step of the blink commands too (derived from R21; decision D27). -/
def Obligations.SnapshotReadOnlyByRestoreAndRendsnap : Prop :=
  ∀ (i : Instr) (s t : State) (v : Bitmap), i ≠ .restore → i ≠ .rendsnap → exec i s = .next t →
    ∃ w, exec i { s with sav := v } = .next { t with sav := w }

/-- The core never reads back what it has emitted or returned, nor the packets still to come: a command does the same
whatever `SINK`, `RES` and the host's next packets are, and leaves the latter alone (derived from R31, R33, R50, R52). -/
def Obligations.ObservationsAreNeverReadBack : Prop :=
  ∀ (i : Instr) (s t : State) (fs : List Frame) (rs : List Bit) (ps : List Packet), exec i s = .next t →
    t.pending = s.pending ∧
    exec i { s with sink := fs ++ s.sink, res := rs ++ s.res, pending := ps } =
      .next { t with sink := fs ++ t.sink, res := rs ++ t.res, pending := ps }

/-- What the display shows after each command: after those of R194 the frame of `CUR`, after the three others that
emit theirs, and what it showed before after those that emit nothing (R194, marked as derived, with R191; decisions
D12, D14, D15). -/
def Obligations.DisplayAfterEachCommand : Prop :=
  ∀ (i : Instr) (s t : State), exec i s = .next t →
    match i with
    | .setbitmap _ => t.shown = pack t.cur
    | .clear => t.shown = pack t.cur ∧ t.shown = darkFrame
    | .rendernum n => t.shown = if -99 ≤ n ∧ n ≤ 99 then pack t.cur else s.shown
    | .setdot x y _ => t.shown = if 0 ≤ x ∧ x ≤ 11 ∧ 0 ≤ y ∧ y ≤ 7 then pack t.cur else s.shown
    | .rendsnap => t.shown = pack t.sav
    | .blink => t.shown = if s.blink = true then pack t.cur else darkFrame
    | .blinkinv => t.shown = if s.blink = true then pack t.cur else packInv t.cur
    | .save => t.shown = s.shown
    | .restore => t.shown = s.shown
    | .setori _ => t.shown = s.shown

/-- Two blink commands in succession from phase off, of the same kind or mixed: `CUR` has its old value, the phase is
off, the results are 1 then 0, the frames the blanked or inverted one and then `Pack(CUR)` (R146 (a), its frames and
the mixed pairs marked as derived; decisions D15, D16). -/
def Obligations.TwoBlinksRestoreTheBitmap : Prop :=
  ∀ (i j : Instr) (s : State), i = .blink ∨ i = .blinkinv → j = .blink ∨ j = .blinkinv → s.blink = false →
    ∃ u, exec i s = .next u ∧
      exec j u = .next { s with sav := s.cur,
                                sink := s.sink ++ [if i = .blink then darkFrame else packInv s.cur, pack s.cur],
                                res := s.res ++ [true, false] }

/-- `SETDOT` with the same operands twice leaves the same `CUR` as once and emits an equal frame; on different dots two
`SETDOT`s commute in their effect on `CUR` (R146 (b) and (c), for `on = 0`, the frames and (c) marked as derived). -/
def Obligations.SetdotIsIdempotentAndCommutes : Prop :=
  (∀ (x y : Int) (on : Bit) (s t u : State), exec (.setdot x y on) s = .next t → exec (.setdot x y on) t = .next u →
    u.cur = t.cur ∧ u.shown = t.shown) ∧
  (∀ (x y x' y' : Int) (on on' : Bit) (s t u t' u' : State), (x, y) ≠ (x', y') →
    exec (.setdot x y on) s = .next t → exec (.setdot x' y' on') t = .next u →
    exec (.setdot x' y' on') s = .next t' → exec (.setdot x y on) t' = .next u' → u.cur = u'.cur)

/-- `SAVE` then `RESTORE` leaves `CUR` unchanged, `RESTORE` then `SAVE` leaves `SAV` unchanged, and neither pair emits
(R146 (d), marked as derived). -/
def Obligations.SaveAndRestoreRoundTrip : Prop :=
  ∀ s : State,
    (∃ t, exec .save s = .next t ∧ exec .restore t = .next { s with sav := s.cur }) ∧
    (∃ t, exec .restore s = .next t ∧ exec .save t = .next { s with cur := s.sav })

/-- The 192 commands of `ANIMCLEAR`, from every state and stopped after any number of them: the first `k` of the sweep
light the first `k` dots of the frame's stream and leave the others, the next `k` darken them from the last one back;
each emits one frame; `SAV`, `ORI`, `BLINK`, `RES` and the ROM stay; at the end `CUR` is blank, the display dark, and
the host's next packet is the one after the routine's (R142, its effects marked as derived; row-major is general
knowledge GK3, log entry 12; the host-side expansion is decision D17). -/
def Obligations.AnimclearSweepsTheDisplay : Prop :=
  ∀ (s : State) (rest : List Packet) (k : Nat), k ≤ 96 →
    let start : State := { s with pending := animClearPackets ++ rest }
    (∃ (b : Bitmap) (fs : List Frame),
      RunsTo k start { start with cur := b, sink := s.sink ++ fs, pending := animClearPackets.drop k ++ rest } ∧
      fs.length = k ∧ (0 < k → fs.getLast? = some (pack b)) ∧
      ∀ (x : Fin 12) (y : Fin 8), dotAt b x y = (decide (12 * y.val + x.val < k) || dotAt s.cur x y)) ∧
    (∃ (b : Bitmap) (fs : List Frame),
      RunsTo (96 + k) start
        { start with cur := b, sink := s.sink ++ fs, pending := animClearPackets.drop (96 + k) ++ rest } ∧
      fs.length = 96 + k ∧ fs.getLast? = some (pack b) ∧
      ∀ (x : Fin 12) (y : Fin 8), dotAt b x y = decide (12 * y.val + x.val < 96 - k)) ∧
    (∃ fs : List Frame,
      RunsTo 192 start { s with cur := blankBitmap, sink := s.sink ++ fs, pending := rest } ∧
      fs.length = 192 ∧ fs.getLast? = some darkFrame ∧ fs[95]? = some litFrame)
end

