-- ==== Sys2Proof/Laws/State.lean ====
section
/-! SUPPORT. What each named update of the state leaves in each field: one lemma per field per update. -/

namespace Sys2Proof.Machine

@[simp] theorem State.writeCur_cur (s : State) (b : Bitmap) : (s.writeCur b).cur = b := rfl
@[simp] theorem State.writeCur_sav (s : State) (b : Bitmap) : (s.writeCur b).sav = s.sav := rfl
@[simp] theorem State.writeCur_ori (s : State) (b : Bitmap) : (s.writeCur b).ori = s.ori := rfl
@[simp] theorem State.writeCur_blink (s : State) (b : Bitmap) : (s.writeCur b).blink = s.blink := rfl
@[simp] theorem State.writeCur_rom (s : State) (b : Bitmap) : (s.writeCur b).rom = s.rom := rfl
@[simp] theorem State.writeCur_sink (s : State) (b : Bitmap) : (s.writeCur b).sink = s.sink := rfl
@[simp] theorem State.writeCur_res (s : State) (b : Bitmap) : (s.writeCur b).res = s.res := rfl
@[simp] theorem State.writeCur_pending (s : State) (b : Bitmap) : (s.writeCur b).pending = s.pending := rfl

@[simp] theorem State.writeSav_cur (s : State) (b : Bitmap) : (s.writeSav b).cur = s.cur := rfl
@[simp] theorem State.writeSav_sav (s : State) (b : Bitmap) : (s.writeSav b).sav = b := rfl
@[simp] theorem State.writeSav_ori (s : State) (b : Bitmap) : (s.writeSav b).ori = s.ori := rfl
@[simp] theorem State.writeSav_blink (s : State) (b : Bitmap) : (s.writeSav b).blink = s.blink := rfl
@[simp] theorem State.writeSav_rom (s : State) (b : Bitmap) : (s.writeSav b).rom = s.rom := rfl
@[simp] theorem State.writeSav_sink (s : State) (b : Bitmap) : (s.writeSav b).sink = s.sink := rfl
@[simp] theorem State.writeSav_res (s : State) (b : Bitmap) : (s.writeSav b).res = s.res := rfl
@[simp] theorem State.writeSav_pending (s : State) (b : Bitmap) : (s.writeSav b).pending = s.pending := rfl

@[simp] theorem State.writeOri_cur (s : State) (v : Bit) : (s.writeOri v).cur = s.cur := rfl
@[simp] theorem State.writeOri_sav (s : State) (v : Bit) : (s.writeOri v).sav = s.sav := rfl
@[simp] theorem State.writeOri_ori (s : State) (v : Bit) : (s.writeOri v).ori = v := rfl
@[simp] theorem State.writeOri_blink (s : State) (v : Bit) : (s.writeOri v).blink = s.blink := rfl
@[simp] theorem State.writeOri_rom (s : State) (v : Bit) : (s.writeOri v).rom = s.rom := rfl
@[simp] theorem State.writeOri_sink (s : State) (v : Bit) : (s.writeOri v).sink = s.sink := rfl
@[simp] theorem State.writeOri_res (s : State) (v : Bit) : (s.writeOri v).res = s.res := rfl
@[simp] theorem State.writeOri_pending (s : State) (v : Bit) : (s.writeOri v).pending = s.pending := rfl

@[simp] theorem State.writeBlink_cur (s : State) (v : Bit) : (s.writeBlink v).cur = s.cur := rfl
@[simp] theorem State.writeBlink_sav (s : State) (v : Bit) : (s.writeBlink v).sav = s.sav := rfl
@[simp] theorem State.writeBlink_ori (s : State) (v : Bit) : (s.writeBlink v).ori = s.ori := rfl
@[simp] theorem State.writeBlink_blink (s : State) (v : Bit) : (s.writeBlink v).blink = v := rfl
@[simp] theorem State.writeBlink_rom (s : State) (v : Bit) : (s.writeBlink v).rom = s.rom := rfl
@[simp] theorem State.writeBlink_sink (s : State) (v : Bit) : (s.writeBlink v).sink = s.sink := rfl
@[simp] theorem State.writeBlink_res (s : State) (v : Bit) : (s.writeBlink v).res = s.res := rfl
@[simp] theorem State.writeBlink_pending (s : State) (v : Bit) : (s.writeBlink v).pending = s.pending := rfl

@[simp] theorem State.emit_cur (s : State) (f : Frame) : (s.emit f).cur = s.cur := rfl
@[simp] theorem State.emit_sav (s : State) (f : Frame) : (s.emit f).sav = s.sav := rfl
@[simp] theorem State.emit_ori (s : State) (f : Frame) : (s.emit f).ori = s.ori := rfl
@[simp] theorem State.emit_blink (s : State) (f : Frame) : (s.emit f).blink = s.blink := rfl
@[simp] theorem State.emit_rom (s : State) (f : Frame) : (s.emit f).rom = s.rom := rfl
@[simp] theorem State.emit_sink (s : State) (f : Frame) : (s.emit f).sink = s.sink ++ [f] := rfl
@[simp] theorem State.emit_res (s : State) (f : Frame) : (s.emit f).res = s.res := rfl
@[simp] theorem State.emit_pending (s : State) (f : Frame) : (s.emit f).pending = s.pending := rfl

@[simp] theorem State.result_cur (s : State) (v : Bit) : (s.result v).cur = s.cur := rfl
@[simp] theorem State.result_sav (s : State) (v : Bit) : (s.result v).sav = s.sav := rfl
@[simp] theorem State.result_ori (s : State) (v : Bit) : (s.result v).ori = s.ori := rfl
@[simp] theorem State.result_blink (s : State) (v : Bit) : (s.result v).blink = s.blink := rfl
@[simp] theorem State.result_rom (s : State) (v : Bit) : (s.result v).rom = s.rom := rfl
@[simp] theorem State.result_sink (s : State) (v : Bit) : (s.result v).sink = s.sink := rfl
@[simp] theorem State.result_res (s : State) (v : Bit) : (s.result v).res = s.res ++ [v] := rfl
@[simp] theorem State.result_pending (s : State) (v : Bit) : (s.result v).pending = s.pending := rfl

@[simp] theorem State.render_cur (s : State) (b : Bitmap) : (s.render b).cur = s.cur := rfl
@[simp] theorem State.render_sav (s : State) (b : Bitmap) : (s.render b).sav = s.sav := rfl
@[simp] theorem State.render_ori (s : State) (b : Bitmap) : (s.render b).ori = s.ori := rfl
@[simp] theorem State.render_blink (s : State) (b : Bitmap) : (s.render b).blink = s.blink := rfl
@[simp] theorem State.render_rom (s : State) (b : Bitmap) : (s.render b).rom = s.rom := rfl
@[simp] theorem State.render_sink (s : State) (b : Bitmap) : (s.render b).sink = s.sink ++ [pack b] := rfl
@[simp] theorem State.render_res (s : State) (b : Bitmap) : (s.render b).res = s.res := rfl
@[simp] theorem State.render_pending (s : State) (b : Bitmap) : (s.render b).pending = s.pending := rfl

@[simp] theorem State.present_cur (s : State) (ps : List Packet) : (s.present ps).cur = s.cur := rfl
@[simp] theorem State.present_sav (s : State) (ps : List Packet) : (s.present ps).sav = s.sav := rfl
@[simp] theorem State.present_ori (s : State) (ps : List Packet) : (s.present ps).ori = s.ori := rfl
@[simp] theorem State.present_blink (s : State) (ps : List Packet) : (s.present ps).blink = s.blink := rfl
@[simp] theorem State.present_rom (s : State) (ps : List Packet) : (s.present ps).rom = s.rom := rfl
@[simp] theorem State.present_sink (s : State) (ps : List Packet) : (s.present ps).sink = s.sink := rfl
@[simp] theorem State.present_res (s : State) (ps : List Packet) : (s.present ps).res = s.res := rfl
@[simp] theorem State.present_pending (s : State) (ps : List Packet) : (s.present ps).pending = ps ++ s.pending := rfl

end Sys2Proof.Machine
end

