-- ==== Sys2Proof/Laws/Ops.lean ====
section
/-! SUPPORT. For each shared operation, once, everything it does; the later proofs cite these and unfold nothing. -/

namespace Sys2Proof.Machine

theorem State.oriented_upright {s : State} (h : s.ori = false) (b : Bitmap) : s.oriented b = b := by
  simp [State.oriented, h]

theorem State.oriented_upsideDown {s : State} (h : s.ori = true) (b : Bitmap) : s.oriented b = revBitmap b := by
  simp [State.oriented, h]

/-- `Show` stores the oriented bitmap, clears the blink phase and emits the frame of what it stored (R131). -/
theorem State.showBitmap_eq (s : State) (b : Bitmap) :
    s.showBitmap b =
      { s with cur := s.oriented b, blink := false, sink := s.sink ++ [pack (s.oriented b)] } := rfl

/-- The off-to-on transition of both blink commands (R138, R139). -/
theorem State.blinkToggle_off {s : State} (h : s.blink = false) (f : Frame) :
    s.blinkToggle f =
      { s with sav := s.cur, blink := true, sink := s.sink ++ [f], res := s.res ++ [true] } := by
  simp [State.blinkToggle, h, State.writeSav, State.emit, State.writeCur, State.writeBlink, State.result]

/-- The on-to-off transition of both blink commands (R138, R139). -/
theorem State.blinkToggle_on {s : State} (h : s.blink = true) (f : Frame) :
    s.blinkToggle f =
      { s with blink := false, sink := s.sink ++ [pack s.cur], res := s.res ++ [false] } := by
  simp [State.blinkToggle, h, State.render, State.emit, State.writeBlink, State.result]

theorem State.takePacket_eq_none {s : State} : s.takePacket = none ↔ s.pending = [] := by
  unfold State.takePacket; split <;> simp_all

theorem State.takePacket_eq_some {s s1 : State} {p : Packet} :
    s.takePacket = some (p, s1) ↔ ∃ rest, s.pending = p :: rest ∧ s1 = { s with pending := rest } := by
  unfold State.takePacket
  split
  · simp_all
  · rename_i q rest h
    simp only [Option.some.injEq, Prod.mk.injEq, h, List.cons.injEq]
    constructor
    · rintro ⟨rfl, rfl⟩; exact ⟨rest, ⟨rfl, rfl⟩, rfl⟩
    · rintro ⟨r, ⟨rfl, rfl⟩, rfl⟩; exact ⟨rfl, rfl⟩

/-- In range, the pixel of a dot is row `y`, bit `11 - x` (R134). -/
theorem dotCell_inRange {x y : Int} (h : DotInRange x y) :
    ∃ cell, dotCell x y = some cell ∧ (cell.1.val : Int) = y ∧ (cell.2.val : Int) = 11 - x := by
  refine ⟨_, dif_pos h, ?_, ?_⟩ <;> simp only [DotInRange, Config.xMax, Config.yMax] at h <;> simp <;> omega

theorem dotCell_outOfRange {x y : Int} (h : ¬ DotInRange x y) : dotCell x y = none := dif_neg h

theorem getLsbD_oneBit : ∀ j l : Fin 12, (1#12 <<< l.val).getLsbD j = decide (j = l) := by decide

/-- One bit of the row changes, to the value asked for (R134). -/
theorem getLsbD_rowWithBit (v : Row) (j l : Fin 12) (on : Bit) :
    (rowWithBit v l on).getLsbD j = if j = l then on else v.getLsbD j := by
  cases on <;>
    simp only [rowWithBit, if_true, Bool.false_eq_true, if_false, BitVec.getLsbD_or, BitVec.getLsbD_and,
      BitVec.getLsbD_not, getLsbD_oneBit] <;>
    by_cases h : j = l <;> simp [h]

/-- One pixel of the bitmap changes, to the value asked for; the others keep theirs (R134). -/
theorem getLsbD_bitmapWithDot (b : Bitmap) (cell : Fin 8 × Fin 12) (on : Bit) (i : Fin 8) (j : Fin 12) :
    (bitmapWithDot b cell on)[i].getLsbD j = if i = cell.1 ∧ j = cell.2 then on else b[i].getLsbD j := by
  obtain ⟨k, l⟩ := cell
  by_cases hi : i = k
  · subst hi
    simp only [bitmapWithDot, Fin.getElem_fin, Vector.getElem_set_self, getLsbD_rowWithBit, true_and]
  · have : k.val ≠ i.val := fun e => hi (Fin.ext e.symm)
    simp [bitmapWithDot, Fin.getElem_fin, Vector.getElem_set_ne _ _ this, hi]

theorem inNumberDomain_iff {n : Int} : inNumberDomain n = true ↔ -99 ≤ n ∧ n ≤ 99 := by
  simp [inNumberDomain, Config.nMin, Config.nMax]

/-- Inside the domain `Compose` answers a bitmap, outside it none (R110). -/
theorem compose_eq (c : Config.Shifts) (rom : GlyphRom) (n : Int) :
    (inNumberDomain n = true ∧ ∃ b, compose c rom n = some b) ∨
      (inNumberDomain n = false ∧ compose c rom n = none) := by
  cases h : inNumberDomain n with
  | true => exact .inl ⟨rfl, _, if_pos h⟩
  | false => exact .inr ⟨rfl, by simp [compose, h]⟩

end Sys2Proof.Machine
end

