-- ==== Sys2Proof/Laws/Packet.lean ====
section
/-! SUPPORT. The fields of a packet put together by `packetOf`, the fields of each format's command word, the row of
the opcode map each format finds, and sign extension as the library's two's complement. -/

namespace Sys2Proof.Laws

open Sys2Proof

@[simp] theorem cw_packetOf (cw : Word16) (pl : Payload) : (packetOf cw pl).cw = cw := by
  ext j hj
  simp only [Packet.cw, packetOf, BitVec.getElem_extractLsb', BitVec.getLsbD_append]
  repeat (rw [if_neg (by omega)])
  rw [show 128 + j - 16 - 16 - 16 - 16 - 16 - 16 - 16 - 16 = j by omega, BitVec.getLsbD_eq_getElem hj]

@[simp] theorem payloadWord_packetOf (cw : Word16) (pl : Payload) (i : Fin 8) :
    (packetOf cw pl).payloadWord i = pl[i] := by
  ext j hj
  fin_cases i <;>
  · simp only [Packet.payloadWord, packetOf, BitVec.getElem_extractLsb', BitVec.getLsbD_append]
    repeat (rw [if_neg (by omega)])
    rw [if_pos (by simp; omega), BitVec.getLsbD_eq_getElem (by simp; omega)]
    congr 1
    simp
    try omega

@[simp] theorem payload_packetOf (cw : Word16) (pl : Payload) : (packetOf cw pl).payload = pl := by
  ext i hi
  simp only [Packet.payload, Vector.getElem_ofFn, payloadWord_packetOf]
  rfl

theorem sext_eq_toInt {w : Nat} (v : BitVec w) : sext v = v.toInt := by
  rw [sext, BitVec.toInt_eq_msb_cond]; push_cast; rfl

@[simp] theorem argField_cwNumber : ∀ imm : BitVec 12, argField (cwNumber imm) = imm := by decide +kernel

@[simp] theorem xField_cwDot : ∀ (xf yf : BitVec 5) (on : Bit), xField (cwDot xf yf on) = xf := by decide +kernel

@[simp] theorem yField_cwDot : ∀ (xf yf : BitVec 5) (on : Bit), yField (cwDot xf yf on) = yf := by decide +kernel

@[simp] theorem onField_cwDot : ∀ (xf yf : BitVec 5) (on : Bit), onField (cwDot xf yf on) = on := by decide +kernel

@[simp] theorem uField_cwOrientation : ∀ u : Bit, uField (cwOrientation u) = u := by decide +kernel

/-- Format N finds the row of `RENDERNUM` whatever its number is (R63). -/
theorem find_cwNumber : ∀ imm : BitVec 12,
    opcodeMap.find? (fun r => r.spelledBy (cwNumber imm)) = some ⟨.rendernum, 0x2000, 0xF000⟩ := by decide +kernel

/-- Format D finds the row of `SETDOT` whatever its coordinates are (R64). -/
theorem find_cwDot : ∀ (xf yf : BitVec 5) (on : Bit),
    opcodeMap.find? (fun r => r.spelledBy (cwDot xf yf on)) = some ⟨.setdot, 0x3000, 0xF800⟩ := by decide +kernel

/-- Format O finds the row of `SETORI` (R65). -/
theorem find_cwOrientation : ∀ u : Bit,
    opcodeMap.find? (fun r => r.spelledBy (cwOrientation u)) = some ⟨.setori, 0xA000, 0xFFFE⟩ := by decide +kernel

end Sys2Proof.Laws
end

