-- ==== Sys2Proof/Laws/PerInstr.lean ====
section
/-! SUPPORT. Facts about every command as syntax, one lemma per constructor of `Instr`. -/

namespace Sys2Proof.Laws

open Sys2Proof

/-- The command word the encoder writes matches the command's own row of the opcode map (R68). -/
def EncodedWordMatches.Statement (i : Instr) : Prop :=
  i.wellFormed = true → ∃ r ∈ opcodeMap, r.op = i.opcode ∧ r.spelledBy (encode i).cw = true

theorem EncodedWordMatches.setbitmap (b : Bitmap) : EncodedWordMatches.Statement (.setbitmap b) := fun _ =>
  ⟨⟨.setbitmap, 0x1000, 0xFFFF⟩, by decide, rfl, by simp only [encode, cw_packetOf]; decide⟩

theorem EncodedWordMatches.rendernum (n : Int) : EncodedWordMatches.Statement (.rendernum n) := fun _ => by
  have h := find_cwNumber (BitVec.ofInt 12 n)
  have hs := List.find?_some h
  exact ⟨_, List.mem_of_find?_eq_some h, rfl, by simpa only [encode, cw_packetOf] using hs⟩

theorem EncodedWordMatches.setdot (x y : Int) (on : Bit) : EncodedWordMatches.Statement (.setdot x y on) := fun _ => by
  have h := find_cwDot (BitVec.ofInt 5 x) (BitVec.ofInt 5 y) on
  have hs := List.find?_some h
  exact ⟨_, List.mem_of_find?_eq_some h, rfl, by simpa only [encode, cw_packetOf] using hs⟩

theorem EncodedWordMatches.save : EncodedWordMatches.Statement .save := fun _ =>
  ⟨⟨.save, 0x4000, 0xFFFF⟩, by decide, rfl, by simp only [encode, cw_packetOf]; decide⟩

theorem EncodedWordMatches.restore : EncodedWordMatches.Statement .restore := fun _ =>
  ⟨⟨.restore, 0x5000, 0xFFFF⟩, by decide, rfl, by simp only [encode, cw_packetOf]; decide⟩

theorem EncodedWordMatches.rendsnap : EncodedWordMatches.Statement .rendsnap := fun _ =>
  ⟨⟨.rendsnap, 0x6000, 0xFFFF⟩, by decide, rfl, by simp only [encode, cw_packetOf]; decide⟩

theorem EncodedWordMatches.blink : EncodedWordMatches.Statement .blink := fun _ =>
  ⟨⟨.blink, 0x7000, 0xFFFF⟩, by decide, rfl, by simp only [encode, cw_packetOf]; decide⟩

theorem EncodedWordMatches.blinkinv : EncodedWordMatches.Statement .blinkinv := fun _ =>
  ⟨⟨.blinkinv, 0x8000, 0xFFFF⟩, by decide, rfl, by simp only [encode, cw_packetOf]; decide⟩

theorem EncodedWordMatches.clear : EncodedWordMatches.Statement .clear := fun _ =>
  ⟨⟨.clear, 0x9000, 0xFFFF⟩, by decide, rfl, by simp only [encode, cw_packetOf]; decide⟩

theorem EncodedWordMatches.setori (u : Bit) : EncodedWordMatches.Statement (.setori u) := fun _ => by
  have h := find_cwOrientation u
  have hs := List.find?_some h
  exact ⟨_, List.mem_of_find?_eq_some h, rfl, by simpa only [encode, cw_packetOf] using hs⟩

end Sys2Proof.Laws
end

