-- ==== Sys2Proof/Laws/Step.lean ====
section
/-! SUPPORT. What a step can do, and runs one step at a time. -/

namespace Sys2Proof.Machine

/-- What a step can do: idle, run the command it decodes, or take a reserved packet. -/
theorem step_cases {s t : State} (h : step s = .next t) :
    (s.pending = [] ∧ t = s) ∨
      ∃ p rest, s.pending = p :: rest ∧
        ((∃ i, decode p = .ok i ∧ exec i { s with pending := rest } = .next t) ∨
          (∃ why, decode p = .error why ∧ t = { s with pending := rest })) := by
  unfold step at h
  split at h
  · rename_i hn
    simp only [State.idle, Host.Outcome.next.injEq] at h
    exact .inl ⟨State.takePacket_eq_none.1 hn, h.symm⟩
  · rename_i p s1 hp
    obtain ⟨rest, hs, rfl⟩ := State.takePacket_eq_some.1 hp
    refine .inr ⟨p, rest, hs, ?_⟩
    split at h
    · rename_i i hi; exact .inl ⟨i, hi, h⟩
    · rename_i why hw
      simp only [State.reservedNoOp, Host.Outcome.next.injEq] at h
      exact .inr ⟨why, hw, h.symm⟩

/-- A run of no steps ends where it began. -/
theorem runsTo_zero {s t : State} : RunsTo 0 s t ↔ t = s := by
  unfold RunsTo
  constructor
  · intro h
    cases h
    rfl
  · rintro rfl
    rfl

theorem run_succ_eq_next {M : Host.Core} {k : Nat} {s t : M.State} :
    M.run (k + 1) s = .next t ↔ ∃ u, M.step s = .next u ∧ M.run k u = .next t := by
  rw [Host.Core.run]
  cases h : M.step s <;> simp

/-- A run of `k + 1` steps is a step and a run of `k` steps. -/
theorem runsTo_succ {k : Nat} {s t : State} : RunsTo (k + 1) s t ↔ ∃ u, step s = .next u ∧ RunsTo k u t :=
  run_succ_eq_next (M := Sys2Proof.core)

end Sys2Proof.Machine
end

