-- ==== Sys2Proof/Laws/Units.lean ====
section
/-! SUPPORT. The function units row by row and word by word: what each element of their results is. -/

namespace Sys2Proof.Machine

@[simp] theorem getElem_blankBitmap (i : Nat) (h : i < 8) : blankBitmap[i] = 0#12 := by
  simp [blankBitmap]

@[simp] theorem getElem_revBitmap (b : Bitmap) (i : Nat) (h : i < 8) :
    (revBitmap b)[i] = revRow (b[7 - i]'(by omega)) := by
  simp only [revBitmap, Vector.getElem_ofFn, Fin.getElem_fin, Fin.val_rev]
  congr 2
  omega

@[simp] theorem pack_word0 (b : Bitmap) : (pack b)[0] = b[0] ++ b[1] ++ b[2].extractLsb' 4 8 := rfl

@[simp] theorem pack_word1 (b : Bitmap) :
    (pack b)[1] = b[2].extractLsb' 0 4 ++ b[3] ++ b[4] ++ b[5].extractLsb' 8 4 := rfl

@[simp] theorem pack_word2 (b : Bitmap) : (pack b)[2] = b[5].extractLsb' 0 8 ++ b[6] ++ b[7] := rfl

@[simp] theorem getElem_packInv (b : Bitmap) (i : Nat) (h : i < 3) :
    (packInv b)[i] = (pack b)[i] ^^^ 0xFFFFFFFF#32 := by
  simp [packInv]

/-- In the domain, rows 1 to 6 of `Compose` are the six lanes (R115). -/
theorem compose_lane {c : Config.Shifts} {rom : GlyphRom} {n : Int} {b : Bitmap} (h : compose c rom n = some b)
    (r : Fin 6) : b[r.val + 1] = composeRow c rom n r := by
  unfold compose at h
  split at h
  · obtain rfl := Option.some.inj h
    fin_cases r <;> rfl
  · cases h

/-- Rows 0 and 7 of `Compose` are blank whatever the ROM holds (R115). -/
theorem compose_margins {c : Config.Shifts} {rom : GlyphRom} {n : Int} {b : Bitmap} (h : compose c rom n = some b) :
    b[0] = 0x000 ∧ b[7] = 0x000 := by
  unfold compose at h
  split at h
  · obtain rfl := Option.some.inj h
    exact ⟨rfl, rfl⟩
  · cases h

/-- A lane of `Compose` depends on the ROM through the glyph rows it reads (R119). -/
theorem composeRow_congr {c : Config.Shifts} {rom rom' : GlyphRom} {n : Int} {r : Fin 6}
    (h : ∀ g ∈ composeGlyphs n, glyphRow rom g r = glyphRow rom' g r) : composeRow c rom n r = composeRow c rom' n r := by
  unfold composeGlyphs at h
  by_cases ht : tensDigit n = 0 <;> simp [ht] at h <;> simp [composeRow, ht, h]

end Sys2Proof.Machine
end

