-- ==== Sys2Proof/Tests/Slice0.lean ====
section
/-! SUPPORT. Tests. Expected values are the spec's own: 95_test_vectors.md (the vector is named in each comment),
30_encoding.md R74, 41_frame_packer.md R106; none is the model's own answer. The `witness_` theorems show, for each
statement with hypotheses, concrete data that meet them together, at the boundaries of each clause. -/

namespace Sys2Proof.Tests

open Sys2Proof Sys2Proof.Machine

/-! ## WellFormed: each check refuses an ill-formed term -/

theorem test_wf_number_bounds :
    (Instr.rendernum 2047).wellFormed = true ∧ (Instr.rendernum 2048).wellFormed = false ∧
    (Instr.rendernum (-2048)).wellFormed = true ∧ (Instr.rendernum (-2049)).wellFormed = false := by decide

theorem test_wf_dot_bounds :
    (Instr.setdot 15 (-16) true).wellFormed = true ∧ (Instr.setdot 16 0 true).wellFormed = false ∧
    (Instr.setdot (-17) 0 true).wellFormed = false ∧ (Instr.setdot 0 16 false).wellFormed = false ∧
    (Instr.setdot 0 (-17) false).wellFormed = false := by decide

/-! ## Decode: words written out from 30_encoding.md, one for every constructor at least -/

/-- The payload of K13 (95 §2.4): stray high bits. -/
def strayPayload : Payload := #v[0xF800, 0x1000, 0xFFFF, 0x0000, 0x0000, 0x0000, 0x0000, 0x8001]

/-- `CW = 0001 0000 0000 0000` and the payload of K13. -/
theorem test_decode_setbitmap : (decode (packetOf 0x1000 strayPayload)).toOption =
    some (.setbitmap #v[0x800, 0x000, 0xFFF, 0x000, 0x000, 0x000, 0x000, 0x001]) := by decide

/-- `CW = 0010 nnnn nnnn nnnn`: the numbers of R74 and of the decode vectors. -/
theorem test_decode_rendernum :
    decodeTableWord 16 0b0010000000000111 = some (.rendernum 7) ∧
    decodeTableWord 16 0b0010111111111011 = some (.rendernum (-5)) ∧
    decodeTableWord 16 0x2064 = some (.rendernum 100) ∧ decodeTableWord 16 0x2800 = some (.rendernum (-2048)) := by
  decide

/-- `CW = 0011 0oxx xxxy yyyy`: `on` bit 10, `xf` bits 9 to 5, `yf` bits 4 to 0 (R74). -/
theorem test_decode_setdot :
    decodeTableWord 16 0b0011010101100111 = some (.setdot 11 7 true) ∧
    decodeTableWord 16 0b0011000101100111 = some (.setdot 11 7 false) ∧
    decodeTableWord 16 0x37E0 = some (.setdot (-1) 0 true) ∧ decodeTableWord 16 0x3408 = some (.setdot 0 8 true) ∧
    decodeTableWord 16 0x3210 = some (.setdot (-16) (-16) false) := by decide

theorem test_decode_save : decodeTableWord 16 0b0100000000000000 = some .save := by decide
theorem test_decode_restore : decodeTableWord 16 0b0101000000000000 = some .restore := by decide
theorem test_decode_rendsnap : decodeTableWord 16 0b0110000000000000 = some .rendsnap := by decide
theorem test_decode_blink : decodeTableWord 16 0b0111000000000000 = some .blink := by decide
theorem test_decode_blinkinv : decodeTableWord 16 0b1000000000000000 = some .blinkinv := by decide
theorem test_decode_clear : decodeTableWord 16 0b1001000000000000 = some .clear := by decide

theorem test_decode_setori :
    decodeTableWord 16 0b1010000000000000 = some (.setori false) ∧
    decodeTableWord 16 0b1010000000000001 = some (.setori true) := by decide

/-- Reserved packets of R74 and of the decode vectors, rejected by name. -/
theorem test_decode_reserved :
    reservedReason 0x0000 = .opcode 0x0 ∧ reservedReason 0xFFFF = .opcode 0xF ∧ reservedReason 0x3C00 = .mustBeZero 0x3 ∧
    [0x0000, 0x1001, 0x3C00, 0x4001, 0x7800, 0xA002, 0xB000, 0xF000, 0xFFFF].all
      (fun w => decodeTableWord 16 w == none) = true := by decide

/-- The payload counts on from the command word: `P0 = 0x0800` is bits 31 to 16 (R74's `SETBITMAP`). -/
theorem test_tableWord_payload :
    decodeTableWord 144 0x08001000 = some (.setbitmap #v[0x800, 0, 0, 0, 0, 0, 0, 0]) ∧
    decodeTableWord 16 0x1000 = some (.setbitmap #v[0, 0, 0, 0, 0, 0, 0, 0]) := by decide

/-! ## The function units -/

/-- `B0` of 95 §2.4. -/
def bitmapB0 : Bitmap := #v[0x123, 0x456, 0x789, 0xABC, 0xDEF, 0x012, 0x345, 0x678]

/-- `B0R` of 95 §2.4, the rotation of `B0`. -/
def bitmapB0R : Bitmap := #v[0x1E6, 0xA2C, 0x480, 0xF7B, 0x3D5, 0x91E, 0x6A2, 0xC48]

/-- 95 §2.1: three rows of the `RevRow` table. -/
theorem test_revRow : revRow 0x123 = 0xC48 ∧ revRow 0x001 = 0x800 ∧ revRow 0xABC = 0x3D5 := by decide

/-- 95 §2.1: two stage traces, one with stray bits, and one stage on its own. -/
theorem test_revRowNet :
    revRowNet 0x0123 = 0xC48 ∧ revRowNet 0xF123 = 0xC48 ∧ swapStage 1 0x5555 0x0123 = 0x0213 := by decide

/-- 95 §2.1: the first row of the `RevBitmap` table. -/
theorem test_revBitmap : revBitmap bitmapB0 = bitmapB0R := by decide

/-- 95 §2.2, rows 1, 7 and 8 (the source's vector S9, and the two straddling rows), and R106. -/
theorem test_pack :
    pack #v[0x800, 0, 0, 0, 0, 0, 0, 0] = #v[0x80000000, 0, 0] ∧
    pack #v[0, 0, 0xFFF, 0, 0, 0, 0, 0] = #v[0x000000FF, 0xF0000000, 0] ∧
    pack #v[0, 0, 0, 0, 0, 0xFFF, 0, 0] = #v[0, 0x0000000F, 0xFF000000] ∧
    pack #v[0x001, 0x002, 0x004, 0x008, 0x010, 0x020, 0x040, 0x080] = #v[0x00100200, 0x40080100, 0x20040080] := by decide

/-- 95 §2.2, row 6, and `Unpack` of its frame. -/
theorem test_packInv_unpack :
    packInv bitmapB0 = #v[0xEDCBA987, 0x6543210F, 0xEDCBA987] ∧
    unpack #v[0x12345678, 0x9ABCDEF0, 0x12345678] = bitmapB0 := by decide

/-- 95 §2.2: stray high bits. -/
theorem test_packWide : packWide strayPayload = #v[0x800000FF, 0xF0000000, 0x00000001] := by decide

/-- 95 §2.2, single dots (7, 2) and (4, 5). -/
theorem test_frameDotAt :
    frameDotAt #v[0x00000001, 0, 0] 7 2 = true ∧ frameDotAt #v[0, 0, 0x80000000] 4 5 = true ∧
    frameDotAt #v[0, 0, 0x80000000] 3 5 = false := by decide

/-- `TESTROM-A` of 95 §2.3, an invention of the spec for testing, digits 0 to 9 and the two sign glyphs. -/
def testRomA : GlyphRom :=
  #v[0x007, 0x005, 0x005, 0x005, 0x005, 0x007, 0x002, 0x006, 0x002, 0x002, 0x002, 0x007,
     0x007, 0x001, 0x007, 0x004, 0x004, 0x007, 0x007, 0x001, 0x007, 0x001, 0x001, 0x007,
     0x005, 0x005, 0x007, 0x001, 0x001, 0x001, 0x007, 0x004, 0x007, 0x001, 0x001, 0x007,
     0x007, 0x004, 0x007, 0x005, 0x005, 0x007, 0x007, 0x001, 0x001, 0x002, 0x002, 0x002,
     0x007, 0x005, 0x007, 0x005, 0x005, 0x007, 0x007, 0x005, 0x007, 0x001, 0x001, 0x007,
     0x000, 0x000, 0x000, 0x000, 0x000, 0x000, 0x000, 0x000, 0x007, 0x000, 0x000, 0x000]

/-- `TESTROM-B`: `TESTROM-A` with a positive sign glyph that is not blank. -/
def testRomB : GlyphRom := (((testRomA.set 61 0x002).set 62 0x007).set 63 0x002)

/-- 95 §2.3 with `TESTROM-A` and the normative shifts. -/
theorem test_compose_romA :
    compose Config.shifts testRomA 7 = some #v[0x000, 0x070, 0x010, 0x010, 0x020, 0x020, 0x020, 0x000] ∧
    compose Config.shifts testRomA (-42) = some #v[0x000, 0x011, 0x00B, 0x031, 0x006, 0x006, 0x009, 0x000] ∧
    compose Config.shifts testRomA 99 = some #v[0x000, 0x02A, 0x01E, 0x02A, 0x006, 0x006, 0x02A, 0x000] ∧
    compose Config.shifts testRomA (-1) = some #v[0x000, 0x010, 0x030, 0x080, 0x010, 0x010, 0x038, 0x000] ∧
    compose Config.shifts testRomA 100 = none := by decide

/-- 95 §2.3 with `TESTROM-B`, and with both shifts 4. -/
theorem test_compose_romB :
    compose Config.shifts testRomB 7 = some #v[0x000, 0x070, 0x050, 0x0F0, 0x060, 0x020, 0x020, 0x000] ∧
    compose ⟨4, 4⟩ testRomA (-99) = some #v[0x000, 0x077, 0x055, 0x777, 0x011, 0x011, 0x077, 0x000] ∧
    compose ⟨4, 4⟩ testRomB 42 = some #v[0x000, 0x0AE, 0x4A2, 0xEEE, 0x428, 0x028, 0x02E, 0x000] := by decide

/-- 95 §2.3, ROM reads: 12 for 7, from 60 and 42 on; 18 for -42; none for 100. -/
theorem test_composeReads :
    (composeReads 7).map Fin.val = [60, 42, 61, 43, 62, 44, 63, 45, 64, 46, 65, 47] ∧
    (composeReads (-42)).length = 18 ∧ composeReads 100 = [] := by decide

/-! ## The ten commands, one step each: the single-command vectors of 95 §2.4 -/

/-- A state over `TESTROM-A` with nothing observed and nothing pending. -/
def stateOf (cur sav : Bitmap) (ori blink : Bit) : State :=
  { cur := cur, sav := sav, ori := ori, blink := blink, rom := testRomA, sink := [], res := [], pending := [] }

/-- What a test reads after a command: the four registers, the frames and the results. -/
structure Observed where
  cur : Bitmap
  sav : Bitmap
  ori : Bit
  blink : Bit
  frames : List Frame
  results : List Bit
  deriving DecidableEq, Repr

/-- What a test reads after a command; none if it stopped. -/
def outcomeOf (i : Instr) (s : State) : Option Observed :=
  match exec i s with
  | .next t => some ⟨t.cur, t.sav, t.ori, t.blink, t.sink, t.res⟩
  | .fault _ => none
  | .refused _ => none

/-- `Z` of 95 §2.4. -/
def bitmapZ : Bitmap := #v[0, 0, 0, 0, 0, 0, 0, 0]

/-- `Pack(B0)` of 95 §2.4. -/
def frameB0 : Frame := #v[0x12345678, 0x9ABCDEF0, 0x12345678]

/-- K11. -/
theorem test_setbitmap_upsideDown : outcomeOf (.setbitmap bitmapB0) (stateOf bitmapZ bitmapZ true false) =
    some ⟨bitmapB0R, bitmapZ, true, false, [#v[0x1E6A2C48, 0x0F7B3D59, 0x1E6A2C48]], []⟩ := by decide

/-- K12. -/
theorem test_setbitmap_endsBlink : outcomeOf (.setbitmap bitmapB0) (stateOf bitmapZ bitmapB0 false true) =
    some ⟨bitmapB0, bitmapB0, false, false, [frameB0], []⟩ := by decide

/-- K34. -/
theorem test_rendernum_upsideDown : outcomeOf (.rendernum 7) (stateOf bitmapB0 bitmapZ true true) =
    some ⟨#v[0x000, 0x040, 0x040, 0x040, 0x080, 0x080, 0x0E0, 0x000], bitmapZ, true, false,
      [#v[0x00004004, 0x00400800, 0x800E0000]], []⟩ := by decide

/-- K36. -/
theorem test_rendernum_rejected : outcomeOf (.rendernum (-100)) (stateOf bitmapB0 bitmapZ true true) =
    some ⟨bitmapB0, bitmapZ, true, true, [], []⟩ := by decide

/-- K9. -/
theorem test_setdot_on : outcomeOf (.setdot 0 0 true) (stateOf bitmapB0 bitmapZ false true) =
    some ⟨#v[0x923, 0x456, 0x789, 0xABC, 0xDEF, 0x012, 0x345, 0x678], bitmapZ, false, true,
      [#v[0x92345678, 0x9ABCDEF0, 0x12345678]], []⟩ := by decide

/-- K3. -/
theorem test_setdot_off :
    outcomeOf (.setdot 11 7 false) (stateOf #v[0x800, 0, 0, 0, 0, 0, 0, 0x001] bitmapZ false false) =
    some ⟨#v[0x800, 0, 0, 0, 0, 0, 0, 0], bitmapZ, false, false, [#v[0x80000000, 0, 0]], []⟩ := by decide

/-- K15. -/
theorem test_save : outcomeOf .save (stateOf bitmapZ bitmapB0 false true) =
    some ⟨bitmapZ, bitmapZ, false, true, [], []⟩ := by decide

/-- K17. -/
theorem test_restore : outcomeOf .restore (stateOf bitmapZ bitmapB0 true true) =
    some ⟨bitmapB0, bitmapB0, true, true, [], []⟩ := by decide

/-- K19. -/
theorem test_rendsnap : outcomeOf .rendsnap (stateOf bitmapZ bitmapB0 true true) =
    some ⟨bitmapZ, bitmapB0, true, true, [frameB0], []⟩ := by decide

/-- K23. -/
theorem test_blink_on : outcomeOf .blink (stateOf bitmapB0 bitmapZ true false) =
    some ⟨bitmapB0, bitmapB0, true, true, [#v[0, 0, 0]], [true]⟩ := by decide

/-- K22. -/
theorem test_blink_off : outcomeOf .blink (stateOf bitmapB0 bitmapZ false true) =
    some ⟨bitmapB0, bitmapZ, false, false, [frameB0], [false]⟩ := by decide

/-- K24. -/
theorem test_blinkinv_on : outcomeOf .blinkinv (stateOf bitmapB0 bitmapZ false false) =
    some ⟨bitmapB0, bitmapB0, false, true, [#v[0xEDCBA987, 0x6543210F, 0xEDCBA987]], [true]⟩ := by decide

/-- K27. -/
theorem test_blinkinv_off : outcomeOf .blinkinv (stateOf bitmapB0 bitmapZ false true) =
    some ⟨bitmapB0, bitmapZ, false, false, [frameB0], [false]⟩ := by decide

/-- K28. -/
theorem test_clear : outcomeOf .clear (stateOf bitmapB0 bitmapB0 false true) =
    some ⟨bitmapZ, bitmapB0, false, false, [#v[0, 0, 0]], []⟩ := by decide

/-- K32. -/
theorem test_setori : outcomeOf (.setori false) (stateOf bitmapB0 bitmapB0 true true) =
    some ⟨bitmapB0, bitmapB0, false, true, [], []⟩ := by decide

/-- K38: a reserved packet, through the step. -/
theorem test_step_reserved :
    step ((stateOf bitmapB0 bitmapZ false true).withFetchWord 16 0x0000) = .next (stateOf bitmapB0 bitmapZ false true) :=
  rfl

/-- The first instruction after reset runs from a packet placed by `withFetchWord`: `SETDOT 0, 0, 1` (K1). -/
theorem test_step_first : ∃ t, step (State.reset.withFetchWord 16 0x3400) = .next t ∧
    t.cur = #v[0x800, 0, 0, 0, 0, 0, 0, 0] ∧ t.sink = [#v[0x80000000, 0, 0]] ∧ t.pending = [] :=
  ⟨_, rfl, by decide, by decide, by decide⟩

/-- PG7: step 1, step 96, step 97 and step 192 of `ANIMCLEAR`, by their command words. -/
theorem test_animClear_words :
    animClear.length = 192 ∧ animClear[0]? = (decodeTableWord 16 0x3400) ∧ animClear[95]? = (decodeTableWord 16 0x3567) ∧
    animClear[96]? = (decodeTableWord 16 0x3167) ∧ animClear[191]? = (decodeTableWord 16 0x3000) := by
  decide +kernel

/-! ## Witnesses: data that meet the hypotheses of each statement that has any -/

/-- A state with the host's next packets. -/
def stateWith (s : State) (ps : List Packet) : State := { s with pending := ps }

/-- `B0` shown upright, phase off. -/
def s00 : State := stateOf bitmapB0 bitmapZ false false

/-- `B0` shown upside-down, phase on, one result returned. -/
def s11 : State := { stateOf bitmapB0 bitmapZ true true with sink := [darkFrame], res := [true] }

theorem witness_DecodeOfEncode :
    (Instr.rendernum (-2048)).wellFormed = true ∧ (Instr.rendernum 2047).wellFormed = true ∧
    (Instr.setdot 15 (-16) true).wellFormed = true ∧ (Instr.setbitmap bitmapB0).wellFormed = true := by decide

theorem witness_EncodeOfDecode :
    decode (packetOf 0x1000 strayPayload) = .ok (.setbitmap (clampRows strayPayload)) ∧
    decode (packetOf 0x7000 strayPayload) = .ok .blink := ⟨rfl, rfl⟩

theorem witness_PacketLayoutAndIgnoredPayload : (0x1001 : Word16) ≠ 0x1000 ∧ (0x2007 : Word16) ≠ 0x1000 := by decide

theorem witness_FormatBRowsAndStrayBits :
    (∀ i : Fin 8, strayPayload[i] &&& 0x0FFF =
      (#v[0x0800, 0x0000, 0x0FFF, 0, 0, 0, 0, 0x0001] : Payload)[i] &&& 0x0FFF) ∧
    (0x001 : BitVec 12) ≠ 0 ∧ (0x800 : BitVec 12) ≠ 0 := by decide

theorem witness_OpcodeMapAndReservedPackets :
    (packetOf 0x3567 strayPayload).cw &&& 0xF800 = 0x3000 ∧ (0xA001 : Word16) &&& 0xFFFE = 0xA000 ∧
    (∀ row ∈ opcodeMap, (packetOf 0x7800 strayPayload).cw &&& row.mask ≠ row.code) ∧
    (stateWith s00 [packetOf 0x7800 strayPayload]).pending = packetOf 0x7800 strayPayload :: [] := by decide

theorem witness_StepRunsTheDecodedCommand :
    (stateWith s00 [packetOf 0x7000 strayPayload, 0]).pending = packetOf 0x7000 strayPayload :: [0] ∧
    decode (packetOf 0x7000 strayPayload) = .ok .blink := ⟨rfl, rfl⟩

theorem witness_IdleCoreHoldsItsState : s00.pending = [] := by decide

theorem witness_NoOperationRaisesAnError :
    ((-100 : Int) < -99 ∨ (99 : Int) < -100) ∧ ((100 : Int) < -99 ∨ (99 : Int) < 100) ∧
    ((-1 : Int) < 0 ∨ (11 : Int) < -1 ∨ (0 : Int) < 0 ∨ (7 : Int) < 0) ∧
    ((12 : Int) < 0 ∨ (11 : Int) < 12 ∨ (0 : Int) < 0 ∨ (7 : Int) < 0) ∧
    ((0 : Int) < 0 ∨ (11 : Int) < 0 ∨ (-1 : Int) < 0 ∨ (7 : Int) < -1) ∧
    ((0 : Int) < 0 ∨ (11 : Int) < 0 ∨ (8 : Int) < 0 ∨ (7 : Int) < 8) := by decide

/-- A command that emits, one that returns a result, one that does neither, and one that is rejected. -/
theorem witness_FramesAndResultsPerCommand :
    (∃ t, exec (.rendernum 99) s00 = .next t) ∧ (∃ t, exec .blinkinv s11 = .next t) ∧
    (∃ t, exec .save s11 = .next t) ∧ (∃ t, exec (.setdot 12 0 true) s00 = .next t) :=
  ⟨⟨_, rfl⟩, ⟨_, rfl⟩, ⟨_, rfl⟩, ⟨_, rfl⟩⟩

theorem witness_RomIsConstant : (∃ t, RunsTo 0 s00 t) ∧ ∃ t, RunsTo 1 (stateWith s00 [packetOf 0x2007 zeroPayload]) t :=
  ⟨⟨_, rfl⟩, ⟨_, rfl⟩⟩

theorem witness_RunsOnlyAppendObservations :
    (∃ t, RunsTo 0 s00 t) ∧ ∃ t, RunsTo 3 (stateWith s00 [packetOf 0x7000 zeroPayload, packetOf 0x4000 zeroPayload]) t :=
  ⟨⟨_, rfl⟩, ⟨_, rfl⟩⟩

theorem witness_StepKeepsObservationsAgree :
    s11.blink = true ∧ s11.ObservationsAgree ∧ ∃ t, step (stateWith s11 [packetOf 0x8000 zeroPayload]) = .next t :=
  ⟨rfl, ⟨fun _ => rfl, by decide⟩, _, rfl⟩

theorem witness_StrayRowBitsDoNotReachTheFrame :
    ∀ i : Fin 8, strayPayload[i] &&& 0xFFF =
      (#v[0x0800, 0x0000, 0x0FFF, 0, 0, 0, 0, 0x0001] : Payload)[i] &&& 0xFFF := by decide

theorem witness_PackInvIsPackOfTheComplement :
    ∀ i : Fin 8, (#v[0xEDC, 0xBA9, 0x876, 0x543, 0x210, 0xFED, 0xCBA, 0x987] : Bitmap)[i] = ~~~bitmapB0[i] := by decide

theorem witness_ComposeDomain :
    ((-100 : Int) < -99 ∨ (99 : Int) < -100) ∧ ((100 : Int) < -99 ∨ (99 : Int) < 100) ∧
    ((-99 : Int) ≤ -99 ∧ (-99 : Int) ≤ 99) ∧ ((-99 : Int) ≤ 99 ∧ (99 : Int) ≤ 99) := by decide

theorem witness_ComposeClosedForm :
    ((-99 : Int) ≤ -99 ∧ (-99 : Int) ≤ 99) ∧ ((-99 : Int) ≤ 0 ∧ (0 : Int) ≤ 99) ∧
    ((-99 : Int) ≤ 99 ∧ (99 : Int) ≤ 99) := by decide

theorem witness_PadShiftCases :
    ((-99 : Int) ≤ -99 ∧ (-99 : Int) ≤ -10) ∧ ((-99 : Int) ≤ -10 ∧ (-10 : Int) ≤ -10) ∧
    ((10 : Int) ≤ 10 ∧ (10 : Int) ≤ 99) ∧ ((10 : Int) ≤ 99 ∧ (99 : Int) ≤ 99) ∧
    ((-9 : Int) ≤ -9 ∧ (-9 : Int) ≤ -1) ∧ ((-9 : Int) ≤ -1 ∧ (-1 : Int) ≤ -1) ∧
    ((0 : Int) ≤ 0 ∧ (0 : Int) ≤ 9) ∧ ((0 : Int) ≤ 9 ∧ (9 : Int) ≤ 9) := by decide

theorem witness_WrappingAccumulatorIsExact : 12 ≤ 12 ∧ 12 ≤ 18 := by decide

/-- Two ROMs that differ, agreeing on all that `Compose(-42)` reads, and on row 0 of every glyph. -/
theorem witness_ComposeReadsOnlyItsAddresses :
    testRomA ≠ testRomB ∧ (∀ a ∈ composeReads (-42), testRomA[a] = testRomB[a]) ∧
    (∀ g : Fin 12, testRomA[6 * g.val + 0] = testRomB[6 * g.val + 0]) ∧
    ((-99 : Int) ≤ -42 ∧ (-42 : Int) ≤ 99) := by decide

/-- A ROM whose two sign glyphs are equal. -/
theorem witness_NegatedNumberIsShiftedOneLess :
    (∀ q : Fin 6, glyphRow (testRomA.set 68 0) .pos q = glyphRow (testRomA.set 68 0) .neg q) ∧
    (1 ≤ 1 ∧ 1 ≤ 99) ∧ (1 ≤ 99 ∧ 99 ≤ 99) := by decide

theorem witness_SevenIsTheGlyphShiftedByFour : s00.ori = false ∧ ∀ r : Fin 6, glyphRow s00.rom .pos r = 0 := by decide

theorem witness_SetbitmapShowsTheBitmap : s00.ori = false ∧ s11.ori = true := by decide

/-- Both orientations, and the numbers at the boundaries of the domain. -/
theorem witness_RendernumShowsTheNumber :
    s00.ori = false ∧ s11.ori = true ∧ ((-99 : Int) ≤ -99 ∧ (-99 : Int) ≤ 99) ∧ ((-99 : Int) ≤ 99 ∧ (99 : Int) ≤ 99) ∧
    ((-100 : Int) < -99 ∨ (99 : Int) < -100) ∧ ((100 : Int) < -99 ∨ (99 : Int) < 100) := by decide

theorem witness_BlinkTogglesThePhase : s00.blink = false ∧ s11.blink = true := by decide

theorem witness_BlinkinvTogglesThePhase : s00.blink = false ∧ s11.blink = true := by decide

theorem witness_SetdotSetsExactlyOneDot :
    ¬ ((0 : Int) ≤ -1 ∧ (-1 : Int) ≤ 11 ∧ (0 : Int) ≤ 0 ∧ (0 : Int) ≤ 7) ∧
    ¬ ((0 : Int) ≤ 12 ∧ (12 : Int) ≤ 11 ∧ (0 : Int) ≤ 0 ∧ (0 : Int) ≤ 7) ∧
    ¬ ((0 : Int) ≤ 0 ∧ (0 : Int) ≤ 11 ∧ (0 : Int) ≤ 8 ∧ (8 : Int) ≤ 7) := by decide

theorem witness_OriWrittenOnlyBySetori :
    ∃ t, step (stateWith s00 [packetOf 0xA001 zeroPayload]) = .next t ∧ t.ori ≠ s00.ori := ⟨_, rfl, by decide⟩

theorem witness_SavChangesOnlyBySaveAndBlink :
    ∃ t, step (stateWith s00 [packetOf 0x8000 zeroPayload]) = .next t ∧ t.sav ≠ s00.sav := ⟨_, rfl, by decide⟩

theorem witness_CurChangesOnlyByFiveCommands :
    ∃ t, step (stateWith s00 [packetOf 0x5000 zeroPayload]) = .next t ∧ t.cur ≠ s00.cur := ⟨_, rfl, by decide⟩

/-- In and out of the domain, from both phases. -/
theorem witness_BlinkPhaseAfterEachCommand :
    (∃ t, exec (.rendernum (-99)) s11 = .next t) ∧ (∃ t, exec (.rendernum (-100)) s11 = .next t) ∧
    (∃ t, exec .blink s00 = .next t) ∧ ∃ t, exec .blink s11 = .next t :=
  ⟨⟨_, rfl⟩, ⟨_, rfl⟩, ⟨_, rfl⟩, ⟨_, rfl⟩⟩

theorem witness_OrientationReadOnlyByShow :
    ((-100 : Int) < -99 ∨ (99 : Int) < -100) ∧ ((100 : Int) < -99 ∨ (99 : Int) < 100) ∧
    (∃ t, exec (.rendernum 100) s11 = .next t) ∧ ∃ t, exec (.setdot 11 7 true) s11 = .next t :=
  ⟨by decide, by decide, ⟨_, rfl⟩, _, rfl⟩

theorem witness_ObservationsAreNeverReadBack :
    (∃ t, exec .rendsnap s11 = .next t) ∧ ∃ t, exec .blink s11 = .next t := ⟨⟨_, rfl⟩, _, rfl⟩

/-- Coordinates on both sides of the bounds. -/
theorem witness_DisplayAfterEachCommand :
    (∃ t, exec (.setdot 11 7 false) s00 = .next t) ∧ (∃ t, exec (.setdot 12 8 false) s00 = .next t) ∧
    (∃ t, exec (.rendernum 99) s11 = .next t) ∧ ∃ t, exec .blinkinv s00 = .next t :=
  ⟨⟨_, rfl⟩, ⟨_, rfl⟩, ⟨_, rfl⟩, _, rfl⟩

theorem witness_SnapshotReadOnlyByRestoreAndRendsnap :
    Instr.blink ≠ .restore ∧ Instr.blink ≠ .rendsnap ∧ ∃ t, exec .blink s11 = .next t := ⟨by decide, by decide, _, rfl⟩

theorem witness_TwoBlinksRestoreTheBitmap :
    (Instr.blinkinv = .blink ∨ Instr.blinkinv = .blinkinv) ∧ (Instr.blink = .blink ∨ Instr.blink = .blinkinv) ∧
    s00.blink = false := by decide

theorem witness_SetdotIsIdempotentAndCommutes :
    ((0 : Int), (0 : Int)) ≠ (11, 7) ∧ ∃ t u, exec (.setdot 0 0 true) s00 = .next t ∧ exec (.setdot 11 7 false) t = .next u :=
  ⟨by decide, _, _, rfl, rfl⟩

theorem witness_AnimclearSweepsTheDisplay : 0 ≤ 96 ∧ 96 ≤ 96 := by decide

end Sys2Proof.Tests
end

/-! ## The state after reset (10_state.md R34, 70_reset_and_hazards.md R190 and R191) -/

namespace Sys2Proof.Machine

@[simp] theorem State.reset_cur : State.reset.cur = blankBitmap := rfl
@[simp] theorem State.reset_sav : State.reset.sav = blankBitmap := rfl
@[simp] theorem State.reset_ori : State.reset.ori = false := rfl
@[simp] theorem State.reset_blink : State.reset.blink = false := rfl
@[simp] theorem State.reset_rom : State.reset.rom = Config.glyphRom := rfl
@[simp] theorem State.reset_sink : State.reset.sink = [] := rfl
@[simp] theorem State.reset_res : State.reset.res = [] := rfl

/-- Before the first frame the display shows the unknown `SINK_INIT` (R191). -/
theorem State.shown_of_sink_eq_nil {s : State} (h : s.sink = []) : s.shown = Config.sinkInit := by
  simp [State.shown, h]

/-- Every row of `BLANK` is zero (R22), the rows being indexed as the statements index them. -/
theorem blankBitmap_row (i : Fin 8) : blankBitmap[i] = 0x000 :=
  getElem_blankBitmap i.val i.isLt

/-- Settles O13: both bitmaps are `BLANK` after reset, and with no frame emitted the display shows `SINK_INIT`. -/
theorem stateAfterReset : Obligations.StateAfterReset := by
  unfold Obligations.StateAfterReset
  have rows_zero (i : Fin 8) :
      State.reset.cur[i] = 0x000 ∧ State.reset.sav[i] = 0x000 ∧ blankBitmap[i] = 0x000 := by
    rw [State.reset_cur, State.reset_sav]
    exact ⟨blankBitmap_row i, blankBitmap_row i, blankBitmap_row i⟩
  exact ⟨rows_zero, State.reset_ori, State.reset_blink, State.reset_rom, State.reset_sink, State.reset_res,
    State.shown_of_sink_eq_nil State.reset_sink⟩

end Sys2Proof.Machine

/-! ## The command word, bit by bit (30_encoding.md R61, R66) -/

namespace Sys2Proof.Laws

open Sys2Proof

theorem getLsbD_cw (p : Packet) (j : Nat) : p.cw.getLsbD j = (decide (j < 16) && p.getLsbD (128 + j)) := by
  simp [Packet.cw]

theorem getLsbD_payloadWord (p : Packet) (i : Fin 8) (j : Nat) :
    (p.payloadWord i).getLsbD j = (decide (j < 16) && p.getLsbD (112 - 16 * i.val + j)) := by
  simp [Packet.payloadWord]

theorem getLsbD_opField (cw : Word16) (j : Nat) :
    (opField cw).getLsbD j = (decide (j < 4) && cw.getLsbD (12 + j)) := by
  simp [opField]

theorem getLsbD_argField (cw : Word16) (j : Nat) :
    (argField cw).getLsbD j = (decide (j < 12) && cw.getLsbD j) := by
  simp [argField]

theorem getLsbD_clampRow (w : Word16) (j : Nat) : (clampRow w).getLsbD j = (decide (j < 12) && w.getLsbD j) := by
  simp [clampRow]

@[simp] theorem opField_and (v w : Word16) : opField (v &&& w) = opField v &&& opField w := by
  simp [opField, BitVec.extractLsb'_and]

@[simp] theorem argField_and (v w : Word16) : argField (v &&& w) = argField v &&& argField w := by
  simp [argField, BitVec.extractLsb'_and]

@[simp] theorem opField_append (op : BitVec 4) (arg : BitVec 12) : opField (op ++ arg) = op :=
  BitVec.extractLsb'_append_eq_left

@[simp] theorem argField_append (op : BitVec 4) (arg : BitVec 12) : argField (op ++ arg) = arg :=
  BitVec.extractLsb'_append_eq_right

/-- A command word is its `op` and its `arg`, and nothing else (R61). -/
theorem opField_append_argField (cw : Word16) : opField cw ++ argField cw = cw :=
  BitVec.extractLsb'_append_extractLsb'_eq_extractLsb' (by rfl) |>.trans (by simp)

theorem cw_eq_iff {v w : Word16} : v = w ↔ opField v = opField w ∧ argField v = argField w := by
  constructor
  · rintro rfl
    exact ⟨rfl, rfl⟩
  · rintro ⟨hop, harg⟩
    rw [← opField_append_argField v, hop, harg, opField_append_argField]

/-! ## The opcode map (30_encoding.md R68) -/

theorem spelledBy_iff {r : OpcodeRow} {cw : Word16} : r.spelledBy cw = true ↔ cw &&& r.mask = r.code := by
  simp [OpcodeRow.spelledBy]

/-- `CW & mask = match`, on `op` and on `arg`: every row of the map tests all of `op`. -/
theorem spelledBy_iff_fields {r : OpcodeRow} (hr : r ∈ opcodeMap) {cw : Word16} :
    r.spelledBy cw = true ↔ opField cw = opField r.code ∧ argField cw &&& argField r.mask = 0 := by
  have hmap : ∀ r ∈ opcodeMap, opField r.mask = BitVec.allOnes 4 ∧ argField r.code = 0 := by decide
  obtain ⟨hmask, hcode⟩ := hmap r hr
  rw [spelledBy_iff, cw_eq_iff, opField_and, argField_and, hmask, hcode, BitVec.and_allOnes]

/-- No command word matches two rows: two rows of the map differ in `op`. -/
theorem row_unique {r r' : OpcodeRow} (hr : r ∈ opcodeMap) (hr' : r' ∈ opcodeMap) {cw : Word16}
    (h : r.spelledBy cw = true) (h' : r'.spelledBy cw = true) : r = r' := by
  have hdistinct : ∀ r ∈ opcodeMap, ∀ r' ∈ opcodeMap, opField r.code = opField r'.code → r = r' := by decide
  obtain ⟨hop, -⟩ := (spelledBy_iff_fields hr).1 h
  obtain ⟨hop', -⟩ := (spelledBy_iff_fields hr').1 h'
  exact hdistinct r hr r' hr' (hop.symm.trans hop')

/-- The row of `SETBITMAP` is the only one of format B, and 0x1000 is its only command word (R66). -/
theorem cw_of_setbitmap_row {r : OpcodeRow} (hr : r ∈ opcodeMap) (hop : r.op = .setbitmap) {cw : Word16}
    (h : r.spelledBy cw = true) : cw = 0x1000 := by
  have hrow : ∀ r ∈ opcodeMap, r.op = .setbitmap → r.mask = BitVec.allOnes 16 ∧ r.code = 0x1000 := by decide
  obtain ⟨hmask, hcode⟩ := hrow r hr hop
  rwa [spelledBy_iff, hmask, hcode, BitVec.and_allOnes] at h

/-- The reserved command words as R68 lists them: `op` of no command, or a must-be-zero bit of the command's format
set. -/
def IsReservedWord (cw : Word16) : Prop :=
  opField cw = 0x0 ∨ 0xB ≤ (opField cw).toNat ∨
    (opField cw = 0x3 ∧ cw.getLsbD 11 = true) ∨
    (opField cw = 0xA ∧ argField cw &&& 0xFFE ≠ 0) ∨
    (opField cw ∈ [0x1#4, 0x4#4, 0x5#4, 0x6#4, 0x7#4, 0x8#4, 0x9#4] ∧ argField cw ≠ 0)

/-- Format D's one must-be-zero bit (R64). -/
theorem argField_and_0x800 (cw : Word16) : argField cw &&& 0x800 ≠ 0 ↔ cw.getLsbD 11 = true := by
  have hbit : (argField cw).getLsbD 11 = cw.getLsbD 11 := getLsbD_argField cw 11
  rw [← hbit, show (0x800 : BitVec 12) = BitVec.twoPow 12 11 from rfl, BitVec.and_twoPow]
  cases (argField cw).getLsbD 11 <;> simp

/-- The ten rows as `op` and the bits of `arg` that must be zero: all of them in formats B and Z, none in format N, bit
11 in format D, all but `u` in format O (R62 to R66). -/
theorem forall_row_fields_iff (P : BitVec 4 → BitVec 12 → Prop) :
    (∀ r ∈ opcodeMap, P (opField r.code) (argField r.mask)) ↔
      P 0x1 0xFFF ∧ P 0x2 0x000 ∧ P 0x3 0x800 ∧ P 0x4 0xFFF ∧ P 0x5 0xFFF ∧ P 0x6 0xFFF ∧ P 0x7 0xFFF ∧
        P 0x8 0xFFF ∧ P 0x9 0xFFF ∧ P 0xA 0xFFE := by
  simp only [opcodeMap, List.forall_mem_cons, List.not_mem_nil, false_imp_iff, implies_true, and_true]
  rfl

/-- A command word matches no row exactly when it is one of R68's reserved words. -/
theorem no_row_iff_isReservedWord (cw : Word16) :
    (∀ r ∈ opcodeMap, ¬ r.spelledBy cw = true) ↔ IsReservedWord cw := by
  have hfields : (∀ r ∈ opcodeMap, ¬ r.spelledBy cw = true) ↔
      ∀ r ∈ opcodeMap, opField cw = opField r.code → argField cw &&& argField r.mask ≠ 0 := by
    refine forall₂_congr fun r hr => ?_
    rw [spelledBy_iff_fields hr, not_and]
  have hall : argField cw &&& 0xFFF = argField cw := BitVec.and_allOnes
  rw [hfields, forall_row_fields_iff fun op mbz => opField cw = op → argField cw &&& mbz ≠ 0, IsReservedWord,
    ← argField_and_0x800, hall]
  obtain ⟨op, hop⟩ : ∃ op, opField cw = BitVec.ofFin op := ⟨_, rfl⟩
  rw [hop]
  fin_cases op <;> simp

/-! ## Decoding -/

theorem decode_of_row {p : Packet} {r : OpcodeRow} (hr : r ∈ opcodeMap) (h : r.spelledBy p.cw = true) :
    decode p = .ok (operandsOf r.op p) := by
  unfold decode
  cases hf : opcodeMap.find? (fun r => r.spelledBy p.cw) with
  | none => exact absurd h (List.find?_eq_none.1 hf r hr)
  | some r' =>
    rw [row_unique hr (List.mem_of_find?_eq_some hf) h (by simpa using List.find?_some hf)]

theorem decode_packetOf_of_find {cw : Word16} {r : OpcodeRow}
    (h : opcodeMap.find? (fun r => r.spelledBy cw) = some r) (pl : Payload) :
    decode (packetOf cw pl) = .ok (operandsOf r.op (packetOf cw pl)) := by
  rw [decode, cw_packetOf, h]

theorem decode_of_no_row {p : Packet} (h : ∀ r ∈ opcodeMap, ¬ r.spelledBy p.cw = true) :
    decode p = .error (reservedReason p.cw) := by
  unfold decode
  rw [List.find?_eq_none.2 h]

theorem decode_of_isReservedWord {p : Packet} (h : IsReservedWord p.cw) : decode p = .error (reservedReason p.cw) :=
  decode_of_no_row ((no_row_iff_isReservedWord p.cw).2 h)

@[simp] theorem opcode_operandsOf (op : Opcode) (p : Packet) : (operandsOf op p).opcode = op := by
  cases op <;> rfl

/-- Only format B reads the payload (R61). -/
theorem operandsOf_congr {op : Opcode} (hop : op ≠ .setbitmap) {p p' : Packet} (hcw : p.cw = p'.cw) :
    operandsOf op p = operandsOf op p' := by
  cases op with
  | setbitmap => exact absurd rfl hop
  | rendernum | setdot | setori => simp only [operandsOf, hcw]
  | save | restore | rendsnap | blink | blinkinv | clear => rfl

/-- The payload of a packet is ignored unless its command word is format B's (R61). -/
theorem decode_congr {p p' : Packet} (hcw : p.cw = p'.cw) (hB : p.cw ≠ 0x1000) : decode p = decode p' := by
  by_cases h : ∃ r ∈ opcodeMap, r.spelledBy p.cw = true
  · obtain ⟨r, hr, hs⟩ := h
    have hop : r.op ≠ .setbitmap := fun hop => hB (cw_of_setbitmap_row hr hop hs)
    rw [decode_of_row hr hs, decode_of_row hr (hcw ▸ hs), operandsOf_congr hop hcw]
  · have hn : ∀ r ∈ opcodeMap, ¬ r.spelledBy p.cw = true := fun r hr hs => h ⟨r, hr, hs⟩
    rw [decode_of_no_row hn, decode_of_no_row (hcw ▸ hn), hcw]

/-- Settles O3: the layout clause by clause, and the decoder's indifference to the payload outside format B. -/
theorem packetLayoutAndIgnoredPayload : Obligations.PacketLayoutAndIgnoredPayload := by
  unfold Obligations.PacketLayoutAndIgnoredPayload
  refine ⟨fun p j => ⟨?cw, ?op, ?arg⟩, fun p i j => ?payload, fun cw pl => ?build, fun cw pl pl' hB => ?ignored⟩
  case cw => rw [getLsbD_cw, decide_eq_true j.isLt, Bool.true_and]
  case op =>
    rw [getLsbD_opField, getLsbD_cw, ← Nat.add_assoc]
    by_cases h : j.val < 4
    · rw [decide_eq_true (show 12 + j.val < 16 by omega), Bool.true_and]
    · rw [decide_eq_false h, Bool.false_and, Bool.false_and]
  case arg => rw [getLsbD_argField, getLsbD_cw, decide_eq_true j.isLt, Bool.true_and]
  case payload => rw [getLsbD_payloadWord, decide_eq_true j.isLt, Bool.true_and]
  case build => exact ⟨cw_packetOf cw pl, payloadWord_packetOf cw pl⟩
  case ignored => exact decode_congr (by simp) (by simpa using hB)

/-- Format B: row `i` of the operand is the clamped `Pi`, whatever the payload (R66, R67). -/
theorem decode_formatB (pl : Payload) : decode (packetOf 0x1000 pl) = .ok (.setbitmap (clampRows pl)) := by
  rw [decode_packetOf_of_find (r := ⟨.setbitmap, 0x1000, 0xFFFF⟩) (by decide)]
  simp only [operandsOf, payload_packetOf]

theorem getElem_clampRows (pl : Payload) (i : Fin 8) : (clampRows pl)[i] = clampRow pl[i] := by
  simp [clampRows]

/-- The stray bits 15 to 12 of a payload word do not reach its row, which is the same slice as `arg` of a command
word (R66). -/
theorem clampRow_and_0x0FFF (w : Word16) : clampRow (w &&& 0x0FFF) = clampRow w :=
  (argField_and w 0x0FFF).trans BitVec.and_allOnes

theorem clampRows_congr {pl pl' : Payload} (h : ∀ i : Fin 8, pl[i] &&& 0x0FFF = pl'[i] &&& 0x0FFF) :
    clampRows pl = clampRows pl' := by
  unfold clampRows
  congr 1
  funext i
  rw [← clampRow_and_0x0FFF, h i, clampRow_and_0x0FFF]

/-- Settles O4: the decoded rows are the clamped payload words, and `op = 0x1` with an `arg` other than 0 is on R68's
list of reserved words. -/
theorem formatBRowsAndStrayBits : Obligations.FormatBRowsAndStrayBits := by
  unfold Obligations.FormatBRowsAndStrayBits
  refine ⟨fun pl => ⟨clampRows pl, decode_formatB pl, fun i j => ?rows⟩, fun pl pl' h => ?stray,
    fun arg pl harg => ?reserved⟩
  case rows => rw [getElem_clampRows, getLsbD_clampRow, decide_eq_true j.isLt, Bool.true_and]
  case stray => rw [decode_formatB, decode_formatB, clampRows_congr h]
  case reserved =>
    refine ⟨_, decode_of_isReservedWord ?_⟩
    rw [cw_packetOf, IsReservedWord, opField_append, argField_append]
    exact .inr (.inr (.inr (.inr ⟨by decide, harg⟩)))

/-! ## The operands of each format (30_encoding.md R67) -/

theorem cwNumber_eq_or (imm : BitVec 12) : cwNumber imm = 0x2000 ||| imm.zeroExtend 16 := by
  rw [cwNumber, BitVec.append_def]
  rfl

/-- The fields of format D stand side by side, so or-ing them in place is the same word, bit by bit (R64). -/
theorem cwDot_eq_or (xf yf : BitVec 5) (on : Bit) :
    cwDot xf yf on = 0x3000 ||| (BitVec.ofBool on).zeroExtend 16 <<< 10 ||| xf.zeroExtend 16 <<< 5 |||
      yf.zeroExtend 16 := by
  refine BitVec.eq_of_getLsbD_eq fun j hj => ?_
  rw [cwDot, BitVec.getLsbD_append, BitVec.getLsbD_append, BitVec.getLsbD_append, BitVec.getLsbD_append]
  interval_cases j <;> simp

theorem cwOrientation_eq_or (u : Bit) : cwOrientation u = 0xA000 ||| (BitVec.ofBool u).zeroExtend 16 := by
  cases u <;> rfl

theorem decode_formatN (imm : BitVec 12) (pl : Payload) :
    decode (packetOf (cwNumber imm) pl) = .ok (.rendernum imm.toInt) := by
  rw [decode_packetOf_of_find (find_cwNumber imm)]
  simp only [operandsOf, cw_packetOf, argField_cwNumber, sext_eq_toInt]

theorem decode_formatD (xf yf : BitVec 5) (on : Bit) (pl : Payload) :
    decode (packetOf (cwDot xf yf on) pl) = .ok (.setdot xf.toInt yf.toInt on) := by
  rw [decode_packetOf_of_find (find_cwDot xf yf on)]
  simp only [operandsOf, cw_packetOf, xField_cwDot, yField_cwDot, onField_cwDot, sext_eq_toInt]

theorem decode_formatO (u : Bit) (pl : Payload) : decode (packetOf (cwOrientation u) pl) = .ok (.setori u) := by
  rw [decode_packetOf_of_find (find_cwOrientation u)]
  simp only [operandsOf, cw_packetOf, uField_cwOrientation]

theorem toInt_range_12 (v : BitVec 12) : -2048 ≤ v.toInt ∧ v.toInt ≤ 2047 :=
  ⟨v.le_toInt, Int.le_of_lt_add_one v.toInt_lt⟩

theorem toInt_range_5 (v : BitVec 5) : -16 ≤ v.toInt ∧ v.toInt ≤ 15 :=
  ⟨v.le_toInt, Int.le_of_lt_add_one v.toInt_lt⟩

/-- Settles O5: each format's command word, put together from its fields, finds its row and gives the fields back. -/
theorem operandsPerFormat : Obligations.OperandsPerFormat := by
  unfold Obligations.OperandsPerFormat
  refine ⟨fun imm pl => ?formatN, fun on xf yf pl => ?formatD, fun u pl => ?formatO, fun pl => ?formatB,
    fun pl => ?formatZ⟩
  case formatN =>
    rw [← cwNumber_eq_or]
    exact ⟨decode_formatN imm pl, toInt_range_12 imm⟩
  case formatD =>
    rw [← cwDot_eq_or]
    obtain ⟨hxlo, hxhi⟩ := toInt_range_5 xf
    exact ⟨decode_formatD xf yf on pl, hxlo, hxhi, toInt_range_5 yf⟩
  case formatO =>
    rw [← cwOrientation_eq_or]
    exact decode_formatO u pl
  case formatB => exact ⟨clampRows pl, decode_formatB pl, getElem_clampRows pl⟩
  case formatZ =>
    exact ⟨decode_packetOf_of_find (r := ⟨.save, 0x4000, 0xFFFF⟩) (by decide) pl,
      decode_packetOf_of_find (r := ⟨.restore, 0x5000, 0xFFFF⟩) (by decide) pl,
      decode_packetOf_of_find (r := ⟨.rendsnap, 0x6000, 0xFFFF⟩) (by decide) pl,
      decode_packetOf_of_find (r := ⟨.blink, 0x7000, 0xFFFF⟩) (by decide) pl,
      decode_packetOf_of_find (r := ⟨.blinkinv, 0x8000, 0xFFFF⟩) (by decide) pl,
      decode_packetOf_of_find (r := ⟨.clear, 0x9000, 0xFFFF⟩) (by decide) pl⟩

end Sys2Proof.Laws

/-! ## The opcode map as the spec prints it, and the step on a reserved packet (30_encoding.md R68) -/

namespace Sys2Proof.Machine

open Sys2Proof.Laws

/-- The core takes a packet the decoder rejects and does nothing else. -/
theorem step_reserved {s : State} {p : Packet} {rest : List Packet} {why : ReservedPacket}
    (hp : s.pending = p :: rest) (hd : decode p = .error why) : step s = .next { s with pending := rest } := by
  simp only [step, State.takePacket_eq_some.2 ⟨rest, hp, rfl⟩, hd, State.reservedNoOp]

/-- The columns (command, match, mask) of a row (R68). -/
def rowColumns (r : OpcodeRow) : Opcode × Word16 × Word16 := (r.op, r.code, r.mask)

theorem forall_columns_iff {cw : Word16} :
    (∀ row ∈ opcodeMap.map rowColumns, cw &&& row.2.2 ≠ row.2.1) ↔ ∀ r ∈ opcodeMap, ¬ r.spelledBy cw = true := by
  simp only [List.forall_mem_map, rowColumns, ne_eq, spelledBy_iff]

/-- Settles O6: the ten rows written out are the columns of the opcode map, whose rows differ in `op`. -/
theorem opcodeMapAndReservedPackets : Obligations.OpcodeMapAndReservedPackets := by
  unfold Obligations.OpcodeMapAndReservedPackets
  intro rows
  have hrows : rows = opcodeMap.map rowColumns := rfl
  clear_value rows
  subst hrows
  refine ⟨fun p row hrow hcw => ?spells, fun cw row row' hrow hrow' hcw hcw' => ?unique, fun cw => ?reserved,
    fun s p rest hnone hp => ?noOp⟩
  case spells =>
    obtain ⟨r, hr, rfl⟩ := List.mem_map.1 hrow
    exact ⟨operandsOf r.op p, decode_of_row hr (spelledBy_iff.2 hcw), opcode_operandsOf r.op p⟩
  case unique =>
    obtain ⟨r, hr, rfl⟩ := List.mem_map.1 hrow
    obtain ⟨r', hr', rfl⟩ := List.mem_map.1 hrow'
    rw [row_unique hr hr' (spelledBy_iff.2 hcw) (spelledBy_iff.2 hcw')]
  case reserved => exact forall_columns_iff.trans (no_row_iff_isReservedWord cw)
  case noOp => exact step_reserved hp (decode_of_no_row (forall_columns_iff.1 hnone))

end Sys2Proof.Machine

/-! ## The Bit Reversal Unit, bit by bit (40_bit_reversal.md R90, R93) -/

namespace Sys2Proof.Machine

/-- One step of R90's pseudocode: bit `i` of `v`, where set, goes to bit `11 - i` of the output row. -/
def mirrorBit (v out : Row) (i : Nat) : Row := if v.getLsbD i then out ||| (1#12 <<< (11 - i)) else out

theorem revRow_eq_foldl_mirrorBit (v : Row) : revRow v = (List.range 12).foldl (mirrorBit v) 0#12 := rfl

/-- Columns are mirrored by `Fin.rev`, which the spec writes `11 - j`. -/
theorem val_rev_column (j : Fin 12) : j.rev.val = 11 - j.val := by
  rw [Fin.val_rev]
  omega

theorem getLsbD_mirrorBit (v out : Row) (i j : Fin 12) :
    (mirrorBit v out i).getLsbD j = (out.getLsbD j || (decide (j.rev = i) && v.getLsbD i)) := by
  have hbit : (1#12 <<< (11 - i.val)).getLsbD j = decide (j.rev = i) := by
    rw [← val_rev_column, getLsbD_oneBit, decide_eq_decide.2 Fin.rev_eq_iff]
  rw [mirrorBit]
  split
  case isTrue hv => rw [BitVec.getLsbD_or, hbit, hv, Bool.and_true]
  case isFalse hv => rw [Bool.eq_false_of_not_eq_true hv, Bool.and_false, Bool.or_false]

/-- The invariant of R90's loop: after the first `n` bits, exactly those bits of `v` stand at their mirrored places. -/
theorem getLsbD_foldl_mirrorBit (v : Row) (j : Fin 12) {n : Nat} (hn : n ≤ 12) :
    ((List.range n).foldl (mirrorBit v) 0#12).getLsbD j = (decide (j.rev.val < n) && v.getLsbD j.rev) := by
  induction n with
  | zero => simp
  | succ n ih =>
    rw [List.range_succ, List.foldl_concat, getLsbD_mirrorBit v _ ⟨n, hn⟩ j, ih (Nat.le_of_succ_le hn)]
    by_cases hlast : j.rev = ⟨n, hn⟩
    · simp [hlast]
    · have hne : j.rev.val ≠ n := fun h => hlast (Fin.ext h)
      have hlt : j.rev.val < n + 1 ↔ j.rev.val < n := by omega
      rw [decide_eq_false hlast, Bool.false_and, Bool.or_false, decide_eq_decide.2 hlt]

@[simp] theorem getLsbD_revRow (v : Row) (j : Nat) (h : j < 12) : (revRow v).getLsbD j = v.getLsbD (11 - j) := by
  rw [revRow_eq_foldl_mirrorBit, getLsbD_foldl_mirrorBit v ⟨j, h⟩ le_rfl, decide_eq_true (Fin.is_lt _), Bool.true_and,
    val_rev_column]

/-- Settles O17: R90's loop, run over all 12 bits. -/
theorem revRowMirrorsEveryBit : Obligations.RevRowMirrorsEveryBit := by
  unfold Obligations.RevRowMirrorsEveryBit
  exact fun v i => getLsbD_revRow v i i.isLt

/-- Settles O20: the row order by the definition of `RevBitmap`, the bits of each row by `RevRow`. -/
theorem revBitmapReversesRowsAndBits : Obligations.RevBitmapReversesRowsAndBits := by
  unfold Obligations.RevBitmapReversesRowsAndBits
  intro b i
  have hrow : (revBitmap b)[i] = revRow b[7 - i.val] := getElem_revBitmap b i i.isLt
  refine ⟨hrow, fun j => ?_⟩
  rw [hrow, getLsbD_revRow _ j j.isLt]

end Sys2Proof.Machine

/-! ## The Frame Packer: its slices, its shifts and masks, its complement (41_frame_packer.md R100, R102, R104) -/

namespace Sys2Proof.Machine

open Sys2Proof.Laws

/-- The eight rows side by side, row 0 first: the 96-bit stream of R100. -/
def rowStream (b : Bitmap) : BitVec (12 + 12 + 12 + 12 + 12 + 12 + 12 + 12) :=
  b[0] ++ b[1] ++ b[2] ++ b[3] ++ b[4] ++ b[5] ++ b[6] ++ b[7]

/-- A slice of a row is a slice of the stream: row `i` stands there above the `7 - i` rows after it. -/
theorem extractLsb'_row (b : Bitmap) (i : Nat) (hi : i < 8) {start len : Nat} (h : start + len ≤ 12) :
    b[i].extractLsb' start len = (rowStream b).extractLsb' (12 * (7 - i) + start) len := by
  unfold rowStream
  interval_cases i <;>
  · simp (disch := omega) only [BitVec.extractLsb'_append_eq_of_le, BitVec.extractLsb'_append_eq_of_add_le]
    congr 1
    omega

theorem row_eq_extractLsb' (b : Bitmap) (i : Nat) (hi : i < 8) :
    b[i] = (rowStream b).extractLsb' (12 * (7 - i)) 12 :=
  BitVec.extractLsb'_eq_self.symm.trans (extractLsb'_row b i hi le_rfl)

/-- The slices of rows that make up a word of the frame are neighbours in the stream. -/
theorem pack_eq_cut (b : Bitmap) :
    pack b = #v[(rowStream b).extractLsb' 64 32, (rowStream b).extractLsb' 32 32, (rowStream b).extractLsb' 0 32] := by
  have glue {start₁ start₂ len₁ len₂ : Nat} (h : start₂ = start₁ + len₁) :=
    BitVec.extractLsb'_append_extractLsb'_eq_extractLsb' (x := rowStream b) (len₂ := len₂) h
  have word0 : (pack b)[0] = (rowStream b).extractLsb' 64 32 := by
    rw [pack_word0, row_eq_extractLsb' b 0, row_eq_extractLsb' b 1, extractLsb'_row b 2 _ (by decide), glue (by rfl),
      glue (by rfl)]
  have word1 : (pack b)[1] = (rowStream b).extractLsb' 32 32 := by
    rw [pack_word1, extractLsb'_row b 2 _ (by decide), row_eq_extractLsb' b 3, row_eq_extractLsb' b 4,
      extractLsb'_row b 5 _ (by decide), glue (by rfl), glue (by rfl), glue (by rfl)]
  have word2 : (pack b)[2] = (rowStream b).extractLsb' 0 32 := by
    rw [pack_word2, extractLsb'_row b 5 _ (by decide), row_eq_extractLsb' b 6, row_eq_extractLsb' b 7, glue (by rfl),
      glue (by rfl)]
  rw [← word0, ← word1, ← word2]
  rfl

/-- Keeping the low `n` bits of a word is masking it. -/
theorem setWidth_extractLsb'_low {w m : Nat} (x : BitVec w) (n : Nat) :
    (x.extractLsb' 0 n).setWidth m = x.setWidth m &&& (BitVec.allOnes n).setWidth m := by
  ext j hj
  simp [Bool.and_comm]

/-- Dropping the low `k` bits of a word is shifting it right. -/
theorem setWidth_extractLsb'_high {w m : Nat} (x : BitVec w) (k : Nat) (hm : w ≤ m) :
    (x.extractLsb' k (w - k)).setWidth m = x.setWidth m >>> k := by
  rw [← BitVec.setWidth_ushiftRight_eq_extractLsb, ← BitVec.setWidth_ushiftRight hm]
  ext j hj
  simp only [BitVec.getElem_setWidth, BitVec.getLsbD_setWidth, BitVec.getLsbD_ushiftRight, Bool.and_eq_right_iff_imp,
    decide_eq_true_eq]
  intro h
  have := BitVec.lt_of_getLsbD h
  omega

/-- `Pack` in the shifts, masks and ors of R100's pseudocode, on 12-bit rows. -/
theorem pack_eq_shifts (b : Bitmap) :
    let r : Fin 8 → Word32 := fun i => b[i].setWidth 32
    pack b = #v[(r 0 <<< 20) ||| (r 1 <<< 8) ||| (r 2 >>> 4),
      ((r 2 &&& 0x00F) <<< 28) ||| (r 3 <<< 16) ||| (r 4 <<< 4) ||| (r 5 >>> 8),
      ((r 5 &&& 0x0FF) <<< 24) ||| (r 6 <<< 12) ||| r 7] := by
  intro r
  have low (v : Row) (n : Nat) : (v.extractLsb' 0 n).setWidth 32 = v.setWidth 32 &&& (BitVec.allOnes n).setWidth 32 :=
    setWidth_extractLsb'_low v n
  have high (v : Row) (k : Nat) : (v.extractLsb' k (12 - k)).setWidth 32 = v.setWidth 32 >>> k :=
    setWidth_extractLsb'_high v k (by decide)
  have word0 : (pack b)[0] = (r 0 <<< 20) ||| (r 1 <<< 8) ||| (r 2 >>> 4) := by
    rw [pack_word0, ← BitVec.setWidth_eq (_ ++ _), BitVec.setWidth_append_append_eq_shiftLeft_setWidth_or, high _ 4]
    rfl
  have word1 : (pack b)[1] = ((r 2 &&& 0x00F) <<< 28) ||| (r 3 <<< 16) ||| (r 4 <<< 4) ||| (r 5 >>> 8) := by
    rw [pack_word1, ← BitVec.setWidth_eq (_ ++ _), BitVec.setWidth_append_append_append_eq_shiftLeft_setWidth_or, low,
      high _ 8]
    rfl
  have word2 : (pack b)[2] = ((r 5 &&& 0x0FF) <<< 24) ||| (r 6 <<< 12) ||| r 7 := by
    rw [pack_word2, ← BitVec.setWidth_eq (_ ++ _), BitVec.setWidth_append_append_eq_shiftLeft_setWidth_or, low]
    rfl
  rw [← word0, ← word1, ← word2]
  rfl

/-- The pseudocode's mask is the clamp of each row, so the packer on wide rows is `Pack` of the clamped rows (R102). -/
theorem packWide_eq_pack_clampRows (w : Payload) : packWide w = pack (clampRows w) := by
  have hrow (i : Fin 8) : w[i].zeroExtend 32 &&& 0xFFF = (clampRows w)[i].setWidth 32 := by
    rw [getElem_clampRows]
    exact (setWidth_extractLsb'_low w[i] 12).symm
  simp only [pack_eq_shifts, packWide, hrow]

theorem clampRow_zeroExtend (v : Row) : clampRow (v.zeroExtend 16) = v := by
  rw [clampRow, BitVec.zeroExtend, BitVec.extractLsb'_setWidth_of_le (by decide), BitVec.extractLsb'_eq_self]

/-- Rows of 12 bits pass the clamp unchanged (R102). -/
@[simp] theorem clampRows_payloadOfBitmap (b : Bitmap) : clampRows (payloadOfBitmap b) = b := by
  ext i hi : 1
  simp only [clampRows, payloadOfBitmap, Vector.getElem_ofFn, Fin.getElem_fin, clampRow_zeroExtend]

/-- Settles O23: each word of the frame glued together from its slices of the stream, and the pseudocode's masks and
shifts read as those slices. -/
theorem packIsTheCutConcatenation : Obligations.PackIsTheCutConcatenation := by
  unfold Obligations.PackIsTheCutConcatenation
  intro b stream
  refine ⟨pack_eq_cut b, ?pseudocode⟩
  case pseudocode => rw [packWide_eq_pack_clampRows, clampRows_payloadOfBitmap]

/-- Settles O25: the packer sees its rows clamped only, and the clamp forgets the stray bits. -/
theorem strayRowBitsDoNotReachTheFrame : Obligations.StrayRowBitsDoNotReachTheFrame := by
  unfold Obligations.StrayRowBitsDoNotReachTheFrame
  refine ⟨packWide_eq_pack_clampRows, fun w w' h => ?_⟩
  rw [packWide_eq_pack_clampRows, packWide_eq_pack_clampRows, clampRows_congr h]

theorem packInv_word (b : Bitmap) (k : Fin 3) : (packInv b)[k] = ~~~(pack b)[k] :=
  (getElem_packInv b k k.isLt).trans BitVec.xor_allOnes

/-- Settles O26: the complement of each word, and the masked packer as `Pack` of the clamped rows. -/
theorem packInvComplementsEveryBit : Obligations.PackInvComplementsEveryBit := by
  unfold Obligations.PackInvComplementsEveryBit
  have bit (b : Bitmap) (k : Fin 3) (j : Fin 32) : (packInv b)[k].getLsbD j = !((pack b)[k].getLsbD j) := by
    rw [packInv_word, BitVec.getLsbD_not, decide_eq_true j.isLt, Bool.true_and]
  refine ⟨bit, fun w k j => ?wide⟩
  case wide => rw [packWide_eq_pack_clampRows, bit]

end Sys2Proof.Machine

/-! ## The domain of the Glyph Compositor and its padding shift (42_glyph_compositor.md R110, R111, R113) -/

namespace Sys2Proof.Machine

theorem inNumberDomain_eq_false_iff {n : Int} : inNumberDomain n = false ↔ n < -99 ∨ 99 < n := by
  rw [← Bool.not_eq_true, inNumberDomain_iff]
  omega

theorem compose_inDomain {n : Int} (h : inNumberDomain n = true) (c : Config.Shifts) (rom : GlyphRom) :
    ∃ b, compose c rom n = some b := by
  obtain ⟨-, hb⟩ | ⟨hout, -⟩ := compose_eq c rom n
  · exact hb
  · rw [h] at hout
    cases hout

theorem compose_outOfDomain {n : Int} (h : inNumberDomain n = false) (c : Config.Shifts) (rom : GlyphRom) :
    compose c rom n = none := by
  obtain ⟨hin, -⟩ | ⟨-, hnone⟩ := compose_eq c rom n
  · rw [h] at hin
    cases hin
  · exact hnone

theorem composeReads_outOfDomain {n : Int} (h : inNumberDomain n = false) : composeReads n = [] := by
  simp [composeReads, h]

theorem exec_rendernum (n : Int) (s : State) : exec (.rendernum n) s = execRendernum n s := rfl

/-- With nothing composed there is nothing to show: the command is a silent no-op (R133). -/
theorem execRendernum_of_compose_eq_none {n : Int} {s : State} (h : compose Config.shifts s.rom n = none) :
    execRendernum n s = .next s := by
  simp only [execRendernum, h]

/-- Settles O29: `Compose`, its reads and `RENDERNUM` all hang on the one domain test. -/
theorem composeDomain : Obligations.ComposeDomain := by
  unfold Obligations.ComposeDomain
  refine ⟨fun c rom n hout => ?composesNothing, fun n s hout => ?noOp, fun c rom n hlo hhi => ?composes⟩
  case composesNothing =>
    have hdom := inNumberDomain_eq_false_iff.2 hout
    exact ⟨compose_outOfDomain hdom c rom, composeReads_outOfDomain hdom⟩
  case noOp =>
    rw [exec_rendernum]
    exact execRendernum_of_compose_eq_none (compose_outOfDomain (inNumberDomain_eq_false_iff.2 hout) _ _)
  case composes => exact compose_inDomain (inNumberDomain_iff.2 ⟨hlo, hhi⟩) c rom

/-- Below 100 the tens digit is 0 exactly for the numbers of one digit (R111). -/
theorem tensDigit_eq_zero_iff {n : Int} (h : n.natAbs < 100) : tensDigit n = 0 ↔ n.natAbs < 10 := by
  have hval : tensDigit n = 0 ↔ n.natAbs / 10 % 10 = 0 := Fin.ext_iff
  omega

/-- In the domain the padding shift turns on the sign and on the number of digits (R113). -/
theorem padShift_eq {n : Int} (h : n.natAbs < 100) :
    padShift n = (if 0 ≤ n then 1 else 0) + (if n.natAbs < 10 then 3 else 0) := by
  simp only [padShift, tensDigit_eq_zero_iff h, Config.padNonneg, Config.padNotens]

/-- Settles O31: in each range the sign and the number of digits are fixed. -/
theorem padShiftCases : Obligations.PadShiftCases := by
  unfold Obligations.PadShiftCases
  refine fun n => ⟨fun hlo hhi => ?negTwoDigits, fun hlo hhi => ?posTwoDigits, fun hlo hhi => ?negOneDigit,
    fun hlo hhi => ?nonnegOneDigit⟩
  case negTwoDigits => rw [padShift_eq (by omega), if_neg (by omega), if_neg (by omega)]
  case posTwoDigits => rw [padShift_eq (by omega), if_pos (by omega), if_neg (by omega)]
  case negOneDigit => rw [padShift_eq (by omega), if_neg (by omega), if_pos (by omega)]
  case nonnegOneDigit => rw [padShift_eq (by omega), if_pos (by omega), if_pos (by omega)]

end Sys2Proof.Machine

/-! ## What the bitmap commands do to the state (43_display_commands.md R130 to R134, R140) -/

namespace Sys2Proof.Machine

open Sys2Proof.Laws

theorem State.showBitmap_upright {s : State} (h : s.ori = false) (b : Bitmap) :
    s.showBitmap b = { s with cur := b, blink := false, sink := s.sink ++ [pack b] } := by
  rw [State.showBitmap_eq, State.oriented_upright h]

theorem State.showBitmap_upsideDown {s : State} (h : s.ori = true) (b : Bitmap) :
    s.showBitmap b = { s with cur := revBitmap b, blink := false, sink := s.sink ++ [pack (revBitmap b)] } := by
  rw [State.showBitmap_eq, State.oriented_upsideDown h]

theorem exec_setbitmap (b : Bitmap) (s : State) : exec (.setbitmap b) s = .next (s.showBitmap b) := rfl

/-- Settles O36: `SETBITMAP` is `Show` of its operand, in either orientation. -/
theorem setbitmapShowsTheBitmap : Obligations.SetbitmapShowsTheBitmap := by
  unfold Obligations.SetbitmapShowsTheBitmap
  refine ⟨fun b s hori => ?upright, fun b s hori => ?upsideDown, decode_formatB⟩
  case upright => rw [exec_setbitmap, State.showBitmap_upright hori]
  case upsideDown => rw [exec_setbitmap, State.showBitmap_upsideDown hori]

/-- With a number composed, the command shows it (R133). -/
theorem exec_rendernum_of_compose_eq_some {n : Int} {s : State} {b : Bitmap}
    (h : compose Config.shifts s.rom n = some b) : exec (.rendernum n) s = .next (s.showBitmap b) := by
  rw [exec_rendernum, execRendernum, h]

/-- Outside the domain the command is a silent no-op (R133). -/
theorem exec_rendernum_outOfDomain {n : Int} (h : n < -99 ∨ 99 < n) (s : State) : exec (.rendernum n) s = .next s := by
  obtain ⟨-, noOp, -⟩ := composeDomain
  exact noOp n s h

/-- Settles O37: in the domain `RENDERNUM` is `Show` of the composed bitmap. -/
theorem rendernumShowsTheNumber : Obligations.RendernumShowsTheNumber := by
  unfold Obligations.RendernumShowsTheNumber
  refine ⟨fun n s hlo hhi => ?inDomain, fun n s hout => exec_rendernum_outOfDomain hout s, fun imm pl => ?formatN⟩
  case inDomain =>
    obtain ⟨b, hb⟩ := compose_inDomain (inNumberDomain_iff.2 ⟨hlo, hhi⟩) Config.shifts s.rom
    rw [exec_rendernum_of_compose_eq_some hb]
    exact ⟨b, hb, fun hori => by rw [State.showBitmap_upright hori],
      fun hori => by rw [State.showBitmap_upsideDown hori]⟩
  case formatN =>
    rw [← cwNumber_eq_or]
    exact decode_formatN imm pl

/-- The pixel of the dot `(x, y)`: row `y`, and the column `x` counted from the left (R44, R134). -/
theorem dotCell_of_fin (x : Fin 12) (y : Fin 8) : dotCell (x.val : Int) (y.val : Int) = some (y, x.rev) := by
  have hrange : DotInRange (x.val : Int) (y.val : Int) := by
    simp only [DotInRange, Config.xMax, Config.yMax]
    omega
  obtain ⟨cell, hcell, hrow, hbit⟩ := dotCell_inRange hrange
  have hy : cell.1 = y := Fin.ext (by omega)
  have hx : cell.2 = x.rev := by
    rw [Fin.ext_iff, val_rev_column]
    omega
  rw [hcell, ← hy, ← hx]

/-- In range `SETDOT` writes one dot of `CUR` and renders the result, whatever `ORI` and `BLINK` are (R134). -/
theorem exec_setdot_of_fin (x : Fin 12) (y : Fin 8) (on : Bit) (s : State) :
    exec (.setdot (x.val : Int) (y.val : Int) on) s =
      .next { s with cur := bitmapWithDot s.cur (y, x.rev) on,
                     sink := s.sink ++ [pack (bitmapWithDot s.cur (y, x.rev) on)] } := by
  rw [exec, execSetdot, dotCell_of_fin]
  rfl

/-- Out of range `SETDOT` is a silent no-op (R134). -/
theorem exec_setdot_outOfRange {x y : Int} (h : ¬ DotInRange x y) (on : Bit) (s : State) :
    exec (.setdot x y on) s = .next s := by
  rw [exec, execSetdot, dotCell_outOfRange h]

theorem dotAt_eq_getLsbD_rev (b : Bitmap) (x : Fin 12) (y : Fin 8) : dotAt b x y = b[y].getLsbD x.rev := by
  rw [dotAt, val_rev_column]

theorem dotAt_bitmapWithDot (b : Bitmap) (x x' : Fin 12) (y y' : Fin 8) (on : Bit) :
    dotAt (bitmapWithDot b (y, x.rev) on) x' y' = if x' = x ∧ y' = y then on else dotAt b x' y' := by
  simp only [dotAt_eq_getLsbD_rev, getLsbD_bitmapWithDot, Fin.rev_inj, and_comm]

theorem getElem_bitmapWithDot (b : Bitmap) (y i : Fin 8) (l : Fin 12) (on : Bit) :
    (bitmapWithDot b (y, l) on)[i] = if i = y then rowWithBit b[i] l on else b[i] := by
  split
  case isTrue h =>
    subst h
    exact Vector.getElem_set_self i.isLt
  case isFalse h => exact Vector.getElem_set_ne _ _ fun hyi => h (Fin.ext hyi.symm)

/-- Settles O38: the dot in question is one cell of the bitmap, and the row that holds it is or-ed or masked. -/
theorem setdotSetsExactlyOneDot : Obligations.SetdotSetsExactlyOneDot := by
  unfold Obligations.SetdotSetsExactlyOneDot
  refine ⟨fun x y on s => ⟨bitmapWithDot s.cur (y, x.rev) on, exec_setdot_of_fin x y on s,
    fun x' y' => dotAt_bitmapWithDot s.cur x x' y y' on, fun i => ?rows⟩,
    fun x y on s hout => exec_setdot_outOfRange hout on s, fun on xf yf pl => ?formatD⟩
  case rows => rw [getElem_bitmapWithDot, rowWithBit, val_rev_column]
  case formatD =>
    rw [← cwDot_eq_or]
    exact decode_formatD xf yf on pl

theorem pack_blankBitmap : pack blankBitmap = #v[0x00000000, 0x00000000, 0x00000000] := rfl

/-- `BLANK` is its own rotation. -/
theorem revBitmap_blankBitmap : revBitmap blankBitmap = blankBitmap := by
  ext i hi : 1
  rw [getElem_revBitmap, getElem_blankBitmap, getElem_blankBitmap]
  rfl

theorem State.oriented_blankBitmap (s : State) : s.oriented blankBitmap = blankBitmap := by
  cases hori : s.ori with
  | false => exact State.oriented_upright hori blankBitmap
  | true => rw [State.oriented_upsideDown hori, revBitmap_blankBitmap]

theorem exec_clear (s : State) : exec .clear s = .next (s.showBitmap blankBitmap) := rfl

/-- Settles O44: `CLEAR` is `Show(BLANK)`, and no orientation changes `BLANK`. -/
theorem clearShowsTheBlankBitmap : Obligations.ClearShowsTheBlankBitmap := by
  unfold Obligations.ClearShowsTheBlankBitmap
  refine ⟨fun s => ⟨blankBitmap, blankBitmap_row, ?shown⟩,
    decode_packetOf_of_find (r := ⟨.clear, 0x9000, 0xFFFF⟩) (by decide)⟩
  case shown => rw [exec_clear, State.showBitmap_eq, State.oriented_blankBitmap, pack_blankBitmap]

end Sys2Proof.Machine

/-! ## The two blink commands (43_display_commands.md R138, R139) -/

namespace Sys2Proof.Machine

open Sys2Proof.Laws

theorem exec_blink (s : State) : exec .blink s = .next (s.blinkToggle (pack blankBitmap)) := rfl

theorem exec_blinkinv (s : State) : exec .blinkinv s = .next (s.blinkToggle (packInv s.cur)) := rfl

/-- Settles O42: the shared toggle with `Pack(BLANK)` as its off-to-on frame. -/
theorem blinkTogglesThePhase : Obligations.BlinkTogglesThePhase := by
  unfold Obligations.BlinkTogglesThePhase
  refine ⟨fun s hoff => ?offToOn, fun s hon => ?onToOff,
    decode_packetOf_of_find (r := ⟨.blink, 0x7000, 0xFFFF⟩) (by decide)⟩
  case offToOn => rw [exec_blink, State.blinkToggle_off hoff, pack_blankBitmap]
  case onToOff => rw [exec_blink, State.blinkToggle_on hon]

/-- `PackInv` as the three complemented words of `Pack` (R104). -/
theorem packInv_eq_words (b : Bitmap) : packInv b = #v[~~~(pack b)[0], ~~~(pack b)[1], ~~~(pack b)[2]] := by
  have word (k : Fin 3) := packInv_word b k
  ext k hk : 1
  interval_cases k
  · exact word 0
  · exact word 1
  · exact word 2

/-- Settles O43: the shared toggle with `PackInv(CUR)` as its off-to-on frame. -/
theorem blinkinvTogglesThePhase : Obligations.BlinkinvTogglesThePhase := by
  unfold Obligations.BlinkinvTogglesThePhase
  refine ⟨fun s hoff => ?offToOn, fun s hon => ?onToOff,
    decode_packetOf_of_find (r := ⟨.blinkinv, 0x8000, 0xFFFF⟩) (by decide)⟩
  case offToOn => rw [exec_blinkinv, State.blinkToggle_off hoff, packInv_eq_words]
  case onToOff => rw [exec_blinkinv, State.blinkToggle_on hon]

end Sys2Proof.Machine

/-! ## `RENDERNUM` of a one-digit number without a sign (42_glyph_compositor.md R121, 43_display_commands.md R133) -/

namespace Sys2Proof.Machine

theorem tensDigit_of_digit (d : Fin 10) : tensDigit (d.val : Int) = 0 :=
  (tensDigit_eq_zero_iff (by omega)).2 (by omega)

theorem onesDigit_of_digit (d : Fin 10) : onesDigit (d.val : Int) = d :=
  Fin.ext (Nat.mod_eq_of_lt d.isLt)

theorem padShift_of_digit (d : Fin 10) : padShift (d.val : Int) = 4 := by
  rw [padShift_eq (by omega), if_pos (by omega), if_pos (by omega)]

theorem signGlyph_of_nonneg {n : Int} (h : 0 ≤ n) : signGlyph n = .pos := if_pos h

/-- With a blank sign, nothing but the padding shift acts on the one digit of the number (R114, R121). -/
theorem composeRow_of_digit {rom : GlyphRom} (hsign : SignPosBlank rom) (d : Fin 10) (r : Fin 6) :
    composeRow Config.shifts rom (d.val : Int) r = glyphRow rom (.digit d) r <<< 4 := by
  have hzero : (glyphRow rom .pos r).toNat = 0 := by rw [hsign r]; rfl
  rw [composeRow, tensDigit_of_digit, onesDigit_of_digit, padShift_of_digit, signGlyph_of_nonneg (by omega), hzero,
    if_pos rfl, Nat.zero_shiftLeft, Nat.zero_add]
  exact BitVec.eq_of_toNat_eq ((BitVec.toNat_ofNat _ _).trans BitVec.toNat_shiftLeft.symm)

/-- The rows of the 7 glyph stand at the addresses 42 to 47 (R41). -/
theorem glyphRow_seven (rom : GlyphRom) (r : Fin 6) : glyphRow rom (.digit 7) r = rom[42 + r.val] := rfl

/-- Settles O35: the lanes of `Compose(7)` are the shifted rows of the 7 glyph, and upright they are stored as they
are. -/
theorem sevenIsTheGlyphShiftedByFour : Obligations.SevenIsTheGlyphShiftedByFour := by
  unfold Obligations.SevenIsTheGlyphShiftedByFour
  intro s hori hsign
  obtain ⟨b, hb⟩ := compose_inDomain (n := 7) (by decide) Config.shifts s.rom
  have hlane (r : Fin 6) : b[1 + r.val] = s.rom[42 + r.val] <<< 4 := by
    rw [← glyphRow_seven, ← composeRow_of_digit hsign 7 r, getElem_congr_idx (Nat.add_comm 1 r.val)]
    exact compose_lane hb r
  obtain ⟨hrow0, hrow7⟩ := compose_margins hb
  refine ⟨_, exec_rendernum_of_compose_eq_some hb, ?_⟩
  rw [State.showBitmap_upright hori]
  exact ⟨hrow0, hrow7, hlane⟩

end Sys2Proof.Machine

/-! ## The commands that only copy a register, render the snapshot or write the flag (43_display_commands.md R135 to
R137, R141) -/

namespace Sys2Proof.Machine

open Sys2Proof.Laws

theorem exec_save (s : State) : exec .save s = .next (s.writeSav s.cur) := rfl

theorem exec_restore (s : State) : exec .restore s = .next (s.writeCur s.sav) := rfl

theorem exec_rendsnap (s : State) : exec .rendsnap s = .next (s.render s.sav) := rfl

theorem exec_setori (u : Bit) (s : State) : exec (.setori u) s = .next (s.writeOri u) := rfl

/-- Settles O39: one write of `SAV`. -/
theorem saveCopiesCurIntoSav : Obligations.SaveCopiesCurIntoSav := by
  unfold Obligations.SaveCopiesCurIntoSav
  refine ⟨fun s => ?copies, decode_packetOf_of_find (r := ⟨.save, 0x4000, 0xFFFF⟩) (by decide)⟩
  case copies => rw [exec_save, State.writeSav]

/-- Settles O40: one write of `CUR`. -/
theorem restoreCopiesSavIntoCur : Obligations.RestoreCopiesSavIntoCur := by
  unfold Obligations.RestoreCopiesSavIntoCur
  refine ⟨fun s => ?copies, decode_packetOf_of_find (r := ⟨.restore, 0x5000, 0xFFFF⟩) (by decide)⟩
  case copies => rw [exec_restore, State.writeCur]

/-- Settles O41: one frame emitted, no register written. -/
theorem rendsnapEmitsTheSnapshot : Obligations.RendsnapEmitsTheSnapshot := by
  unfold Obligations.RendsnapEmitsTheSnapshot
  refine ⟨fun s => ?emits, decode_packetOf_of_find (r := ⟨.rendsnap, 0x6000, 0xFFFF⟩) (by decide)⟩
  case emits => rw [exec_rendsnap, State.render, State.emit]

/-- Settles O45: one write of `ORI`, by the operand of format O. -/
theorem setoriWritesOnlyTheFlag : Obligations.SetoriWritesOnlyTheFlag := by
  unfold Obligations.SetoriWritesOnlyTheFlag
  refine ⟨fun u s => ?writes, fun u pl => ?formatO⟩
  case writes => rw [exec_setori, State.writeOri]
  case formatO =>
    rw [← cwOrientation_eq_or]
    exact decode_formatO u pl

end Sys2Proof.Machine

/-! ## No operation raises an error (60_exceptions.md R170) -/

namespace Sys2Proof.Machine

/-- Every command completes, on every operand and in every state (R144). -/
theorem exists_exec_eq_next (i : Instr) (s : State) : ∃ t, exec i s = .next t := by
  cases i with
  | setbitmap b => exact ⟨_, exec_setbitmap b s⟩
  | rendernum n =>
    cases h : compose Config.shifts s.rom n with
    | some b => exact ⟨_, exec_rendernum_of_compose_eq_some h⟩
    | none => exact ⟨s, execRendernum_of_compose_eq_none h⟩
  | setdot x y on =>
    rw [exec, execSetdot]
    cases dotCell x y with
    | some cell => exact ⟨_, rfl⟩
    | none => exact ⟨s, rfl⟩
  | save => exact ⟨_, exec_save s⟩
  | restore => exact ⟨_, exec_restore s⟩
  | rendsnap => exact ⟨_, exec_rendsnap s⟩
  | blink => exact ⟨_, exec_blink s⟩
  | blinkinv => exact ⟨_, exec_blinkinv s⟩
  | clear => exact ⟨_, exec_clear s⟩
  | setori u => exact ⟨_, exec_setori u s⟩

/-- With no packet presented the core is idle and holds its state (R183). -/
theorem step_idle {s : State} (hp : s.pending = []) : step s = .next s := by
  simp only [step, State.takePacket_eq_none.2 hp, State.idle]

/-- The core takes a packet the decoder accepts and runs its command (R52, R144). -/
theorem step_decoded {s : State} {p : Packet} {rest : List Packet} {i : Instr}
    (hp : s.pending = p :: rest) (hd : decode p = .ok i) : step s = exec i { s with pending := rest } := by
  simp only [step, State.takePacket_eq_some.2 ⟨rest, hp, rfl⟩, hd]

/-- Every step goes on: idle, past a reserved packet, or by a command that completes. -/
theorem exists_step_eq_next (s : State) : ∃ t, step s = .next t := by
  cases hp : s.pending with
  | nil => exact ⟨s, step_idle hp⟩
  | cons p rest =>
    cases hd : decode p with
    | error why => exact ⟨_, step_reserved hp hd⟩
    | ok i =>
      rw [step_decoded hp hd]
      exact exists_exec_eq_next i _

/-- A run goes on for any number of steps, past the packets presented too. -/
theorem exists_runsTo (k : Nat) (s : State) : ∃ t, RunsTo k s t := by
  induction k generalizing s with
  | zero => exact ⟨s, runsTo_zero.2 rfl⟩
  | succ k ih =>
    obtain ⟨u, hu⟩ := exists_step_eq_next s
    obtain ⟨t, ht⟩ := ih u
    exact ⟨t, runsTo_succ.2 ⟨u, hu, ht⟩⟩

theorem not_dotInRange_iff {x y : Int} : ¬ DotInRange x y ↔ x < 0 ∨ 11 < x ∨ y < 0 ∨ 7 < y := by
  simp only [DotInRange, Config.xMax, Config.yMax]
  omega

/-- Settles O10: runs go on because every command completes, and out of range the two commands answer their state. -/
theorem noOperationRaisesAnError : Obligations.NoOperationRaisesAnError := by
  unfold Obligations.NoOperationRaisesAnError
  exact ⟨exists_runsTo, fun _ s hout => exec_rendernum_outOfDomain hout s,
    fun _ _ on s hout => exec_setdot_outOfRange (not_dotInRange_iff.2 hout) on s⟩

end Sys2Proof.Machine

/-! ## Encoding and decoding are inverse (30_encoding.md R62 to R68, R74) -/

namespace Sys2Proof.Laws

open Sys2Proof Sys2Proof.Machine

theorem fitsSigned_iff {w : Nat} {v : Int} :
    fitsSigned w v = true ↔ -(2 : Int) ^ (w - 1) ≤ v ∧ v < (2 : Int) ^ (w - 1) := by
  simp [fitsSigned]

/-- A value that fits its field comes back from it (R67). -/
theorem toInt_ofInt_of_fitsSigned {w : Nat} (hw : 0 < w) {v : Int} (h : fitsSigned w v = true) :
    (BitVec.ofInt w v).toInt = v := by
  obtain ⟨hlo, hhi⟩ := fitsSigned_iff.1 h
  exact BitVec.toInt_ofInt_eq_self hw hlo hhi

/-- What a field holds fits it (R67). -/
theorem fitsSigned_toInt {w : Nat} (v : BitVec w) : fitsSigned w v.toInt = true :=
  fitsSigned_iff.2 ⟨v.le_toInt, v.toInt_lt⟩

/-- Settles O1: format by format, the decoder reads back the fields the encoder wrote. -/
theorem decodeOfEncode : Obligations.DecodeOfEncode := by
  unfold Obligations.DecodeOfEncode
  obtain ⟨-, -, -, -, formatZ⟩ := operandsPerFormat
  obtain ⟨hsave, hrestore, hrendsnap, hblink, hblinkinv, hclear⟩ := formatZ zeroPayload
  intro i hwf
  cases i with
  | setbitmap b => rw [encode, decode_formatB, clampRows_payloadOfBitmap]
  | rendernum n => rw [encode, decode_formatN, toInt_ofInt_of_fitsSigned (by decide) hwf]
  | setdot x y on =>
    obtain ⟨hx, hy⟩ := (Bool.and_eq_true_iff ..).1 hwf
    rw [encode, decode_formatD, toInt_ofInt_of_fitsSigned (by decide) hx, toInt_ofInt_of_fitsSigned (by decide) hy]
  | save => exact hsave
  | restore => exact hrestore
  | rendsnap => exact hrendsnap
  | blink => exact hblink
  | blinkinv => exact hblinkinv
  | clear => exact hclear
  | setori u => exact decode_formatO u zeroPayload

/-- A packet that decodes matches a row of the map and gives that row's command its operands (R67, R68). -/
theorem row_of_decode_eq_ok {p : Packet} {i : Instr} (h : decode p = .ok i) :
    ∃ r ∈ opcodeMap, r.spelledBy p.cw = true ∧ i = operandsOf r.op p := by
  unfold decode at h
  split at h
  case h_1 r hr => exact ⟨r, List.mem_of_find?_eq_some hr, by simpa using List.find?_some hr, (Except.ok.inj h).symm⟩
  case h_2 => cases h

theorem wellFormed_operandsOf (op : Opcode) (p : Packet) : (operandsOf op p).wellFormed = true := by
  cases op with
  | rendernum => simp only [operandsOf, Instr.wellFormed, sext_eq_toInt, fitsSigned_toInt]
  | setdot => simp only [operandsOf, Instr.wellFormed, sext_eq_toInt, fitsSigned_toInt, Bool.and_self]
  | setbitmap | save | restore | rendsnap | blink | blinkinv | clear | setori => rfl

/-- Where the mask has ones, a command word that matches has the bits of the row's `match` (R68). -/
theorem extractLsb'_of_spelledBy {r : OpcodeRow} {cw : Word16} (h : r.spelledBy cw = true) {start len : Nat}
    (hmask : r.mask.extractLsb' start len = BitVec.allOnes len) :
    cw.extractLsb' start len = r.code.extractLsb' start len := by
  rw [← spelledBy_iff.1 h, BitVec.extractLsb'_and, hmask, BitVec.and_allOnes]

theorem ofBool_getLsbD {w : Nat} (x : BitVec w) (j : Nat) : BitVec.ofBool (x.getLsbD j) = x.extractLsb' j 1 := by
  ext k hk
  obtain rfl : k = 0 := by omega
  simp

/-- A row with no operand has one command word only (R62, R66). -/
theorem cw_of_exact_row {r : OpcodeRow} {cw : Word16} (h : r.spelledBy cw = true) (hmask : r.mask = BitVec.allOnes 16) :
    cw = r.code := by
  rwa [spelledBy_iff, hmask, BitVec.and_allOnes] at h

/-- Format N: `op` and `imm12` are the whole command word (R63). -/
theorem cwNumber_argField {cw : Word16} (h : OpcodeRow.spelledBy ⟨.rendernum, 0x2000, 0xF000⟩ cw = true) :
    cwNumber (argField cw) = cw := by
  have hop : opField cw = 0x2#4 := extractLsb'_of_spelledBy h (start := 12) (by decide)
  rw [cwNumber, ← hop, opField_append_argField]

/-- Format D: `op`, the zero bit 11, `on`, `xf` and `yf` are the whole command word (R64). -/
theorem cwDot_fields {cw : Word16} (h : OpcodeRow.spelledBy ⟨.setdot, 0x3000, 0xF800⟩ cw = true) :
    cwDot (xField cw) (yField cw) (onField cw) = cw := by
  have hop : cw.extractLsb' 12 4 = 0x3#4 := extractLsb'_of_spelledBy h (by decide)
  have hzero : cw.extractLsb' 11 1 = 0#1 := extractLsb'_of_spelledBy h (by decide)
  rw [cwDot, ← hop, ← hzero, onField, ofBool_getLsbD, xField, yField,
    BitVec.extractLsb'_append_extractLsb'_eq_extractLsb' (by rfl),
    BitVec.extractLsb'_append_extractLsb'_eq_extractLsb' (by rfl),
    BitVec.extractLsb'_append_extractLsb'_eq_extractLsb' (by rfl),
    BitVec.extractLsb'_append_extractLsb'_eq_extractLsb' (by rfl), BitVec.extractLsb'_eq_self]

/-- Format O: `op`, eleven zero bits and `u` are the whole command word (R65). -/
theorem cwOrientation_uField {cw : Word16} (h : OpcodeRow.spelledBy ⟨.setori, 0xA000, 0xFFFE⟩ cw = true) :
    cwOrientation (uField cw) = cw := by
  have hop : cw.extractLsb' 12 4 = 0xA#4 := extractLsb'_of_spelledBy h (by decide)
  have hzero : cw.extractLsb' 1 11 = 0#11 := extractLsb'_of_spelledBy h (by decide)
  rw [cwOrientation, ← hop, ← hzero, uField, ofBool_getLsbD,
    BitVec.extractLsb'_append_extractLsb'_eq_extractLsb' (by rfl),
    BitVec.extractLsb'_append_extractLsb'_eq_extractLsb' (by rfl), BitVec.extractLsb'_eq_self]

/-- The encoder writes back the command word the operands were read from (R62 to R68). -/
theorem cw_encode_operandsOf {r : OpcodeRow} (hr : r ∈ opcodeMap) {p : Packet} (h : r.spelledBy p.cw = true) :
    (encode (operandsOf r.op p)).cw = p.cw := by
  obtain ⟨op, code, mask⟩ := r
  cases op with
  | rendernum =>
    obtain ⟨rfl, rfl⟩ : code = 0x2000 ∧ mask = 0xF000 := by simpa [opcodeMap] using hr
    simp only [operandsOf, encode, cw_packetOf, sext_eq_toInt, BitVec.ofInt_toInt, cwNumber_argField h]
  | setdot =>
    obtain ⟨rfl, rfl⟩ : code = 0x3000 ∧ mask = 0xF800 := by simpa [opcodeMap] using hr
    simp only [operandsOf, encode, cw_packetOf, sext_eq_toInt, BitVec.ofInt_toInt, cwDot_fields h]
  | setori =>
    obtain ⟨rfl, rfl⟩ : code = 0xA000 ∧ mask = 0xFFFE := by simpa [opcodeMap] using hr
    simp only [operandsOf, encode, cw_packetOf, cwOrientation_uField h]
  | setbitmap | save | restore | rendsnap | blink | blinkinv | clear =>
    simp only [opcodeMap, List.mem_cons, OpcodeRow.mk.injEq, reduceCtorEq, false_and, true_and, List.not_mem_nil,
      or_false, false_or] at hr
    obtain ⟨rfl, rfl⟩ := hr
    exact (cw_packetOf _ _).trans (cw_of_exact_row h rfl).symm

theorem zeroExtend_clampRow (w : Word16) : (clampRow w).zeroExtend 16 = w &&& 0x0FFF := by
  rw [clampRow, BitVec.zeroExtend, setWidth_extractLsb'_low, BitVec.setWidth_eq]
  rfl

theorem payloadWord_encode_of_ne_setbitmap {i : Instr} (h : i.opcode ≠ .setbitmap) (k : Fin 8) :
    (encode i).payloadWord k = 0 := by
  have hzero : zeroPayload[k] = 0 := by simp [zeroPayload]
  cases i with
  | setbitmap => exact absurd rfl h
  | rendernum | setdot | save | restore | rendsnap | blink | blinkinv | clear | setori =>
    rw [encode, payloadWord_packetOf, hzero]

/-- In format B the encoder writes back the low 12 bits of each payload word (R66). -/
theorem payloadWord_encode_setbitmap (p : Packet) (k : Fin 8) :
    (encode (.setbitmap (clampRows p.payload))).payloadWord k = p.payloadWord k &&& 0x0FFF := by
  have hrow : (payloadOfBitmap (clampRows p.payload))[k] = (clampRow p.payload[k]).zeroExtend 16 := by
    simp [payloadOfBitmap, clampRows]
  have hword : p.payload[k] = p.payloadWord k := by simp [Packet.payload]
  rw [encode, payloadWord_packetOf, hrow, zeroExtend_clampRow, hword]

/-- Settles O2: the command word is put together again from the fields read, the payload from the clamped rows. -/
theorem encodeOfDecode : Obligations.EncodeOfDecode := by
  unfold Obligations.EncodeOfDecode
  intro p i hp
  obtain ⟨r, hr, hspelled, rfl⟩ := row_of_decode_eq_ok hp
  refine ⟨wellFormed_operandsOf r.op p, cw_encode_operandsOf hr hspelled, fun k => ?payload⟩
  split
  case isTrue hB =>
    rw [opcode_operandsOf] at hB
    rw [hB, operandsOf, payloadWord_encode_setbitmap]
  case isFalse hB => exact payloadWord_encode_of_ne_setbitmap hB k

/-- Settles O7: twelve closed words, put through the decoder. -/
theorem writtenOutWordsDecode : Obligations.WrittenOutWordsDecode := by
  unfold Obligations.WrittenOutWordsDecode
  decide

end Sys2Proof.Laws

/-! ## What each command does, case by case (43_display_commands.md R130 to R145) -/

namespace Sys2Proof.Machine

/-- What each command makes of a state, in every case its rule distinguishes (R132 to R141): the conditions, and every
field that changes. `exec_eq_next_iff` ties it to `exec`. -/
inductive Effect : Instr → State → State → Prop
  | setbitmap (b : Bitmap) (s : State) :
    Effect (.setbitmap b) s
      { s with cur := s.oriented b, blink := false, sink := s.sink ++ [pack (s.oriented b)] }
  | rendernum {n : Int} {s : State} {b : Bitmap} (hdom : -99 ≤ n ∧ n ≤ 99)
      (hb : compose Config.shifts s.rom n = some b) :
    Effect (.rendernum n) s
      { s with cur := s.oriented b, blink := false, sink := s.sink ++ [pack (s.oriented b)] }
  | rendernumOutOfDomain {n : Int} (hout : ¬ (-99 ≤ n ∧ n ≤ 99)) (s : State) : Effect (.rendernum n) s s
  | setdot {x y : Int} {cell : Fin 8 × Fin 12} (hrange : DotInRange x y) (hcell : dotCell x y = some cell) (on : Bit)
      (s : State) :
    Effect (.setdot x y on) s
      { s with cur := bitmapWithDot s.cur cell on, sink := s.sink ++ [pack (bitmapWithDot s.cur cell on)] }
  | setdotOutOfRange {x y : Int} (hout : ¬ DotInRange x y) (on : Bit) (s : State) : Effect (.setdot x y on) s s
  | save (s : State) : Effect .save s { s with sav := s.cur }
  | restore (s : State) : Effect .restore s { s with cur := s.sav }
  | rendsnap (s : State) : Effect .rendsnap s { s with sink := s.sink ++ [pack s.sav] }
  | blinkGoingOn {s : State} (hoff : s.blink = false) :
    Effect .blink s
      { s with sav := s.cur, blink := true, sink := s.sink ++ [darkFrame], res := s.res ++ [true] }
  | blinkGoingOff {s : State} (hon : s.blink = true) :
    Effect .blink s { s with blink := false, sink := s.sink ++ [pack s.cur], res := s.res ++ [false] }
  | blinkinvGoingOn {s : State} (hoff : s.blink = false) :
    Effect .blinkinv s
      { s with sav := s.cur, blink := true, sink := s.sink ++ [packInv s.cur], res := s.res ++ [true] }
  | blinkinvGoingOff {s : State} (hon : s.blink = true) :
    Effect .blinkinv s { s with blink := false, sink := s.sink ++ [pack s.cur], res := s.res ++ [false] }
  | clear (s : State) :
    Effect .clear s { s with cur := blankBitmap, blink := false, sink := s.sink ++ [darkFrame] }
  | setori (u : Bit) (s : State) : Effect (.setori u) s { s with ori := u }

/-- The frame of `BLANK` is dark (R105 (c)). -/
theorem pack_blankBitmap_eq_darkFrame : pack blankBitmap = darkFrame := pack_blankBitmap

theorem exec_of_effect {i : Instr} {s t : State} (h : Effect i s t) : exec i s = .next t := by
  cases h with
  | setbitmap b => rw [exec_setbitmap, State.showBitmap_eq]
  | rendernum _ hb => rw [exec_rendernum_of_compose_eq_some hb, State.showBitmap_eq]
  | rendernumOutOfDomain hout => exact exec_rendernum_outOfDomain (by omega) s
  | setdot _ hcell on =>
    rw [exec, execSetdot, hcell]
    rfl
  | setdotOutOfRange hout on => exact exec_setdot_outOfRange hout on s
  | save => exact exec_save s
  | restore => exact exec_restore s
  | rendsnap => exact exec_rendsnap s
  | blinkGoingOn hoff => rw [exec_blink, State.blinkToggle_off hoff, pack_blankBitmap_eq_darkFrame]
  | blinkGoingOff hon => rw [exec_blink, State.blinkToggle_on hon]
  | blinkinvGoingOn hoff => rw [exec_blinkinv, State.blinkToggle_off hoff]
  | blinkinvGoingOff hon => rw [exec_blinkinv, State.blinkToggle_on hon]
  | clear => rw [exec_clear, State.showBitmap_eq, State.oriented_blankBitmap, pack_blankBitmap_eq_darkFrame]
  | setori u => exact exec_setori u s

/-- One of the cases applies to every command in every state. -/
theorem exists_effect (i : Instr) (s : State) : ∃ t, Effect i s t := by
  cases i with
  | setbitmap b => exact ⟨_, .setbitmap b s⟩
  | rendernum n =>
    by_cases hdom : -99 ≤ n ∧ n ≤ 99
    · obtain ⟨b, hb⟩ := compose_inDomain (inNumberDomain_iff.2 hdom) Config.shifts s.rom
      exact ⟨_, .rendernum hdom hb⟩
    · exact ⟨_, .rendernumOutOfDomain hdom s⟩
  | setdot x y on =>
    by_cases hrange : DotInRange x y
    · obtain ⟨cell, hcell, -⟩ := dotCell_inRange hrange
      exact ⟨_, .setdot hrange hcell on s⟩
    · exact ⟨_, .setdotOutOfRange hrange on s⟩
  | save => exact ⟨_, .save s⟩
  | restore => exact ⟨_, .restore s⟩
  | rendsnap => exact ⟨_, .rendsnap s⟩
  | blink =>
    cases hphase : s.blink with
    | false => exact ⟨_, .blinkGoingOn hphase⟩
    | true => exact ⟨_, .blinkGoingOff hphase⟩
  | blinkinv =>
    cases hphase : s.blink with
    | false => exact ⟨_, .blinkinvGoingOn hphase⟩
    | true => exact ⟨_, .blinkinvGoingOff hphase⟩
  | clear => exact ⟨_, .clear s⟩
  | setori u => exact ⟨_, .setori u s⟩

/-- `Effect` says all that a command does: every later proof about `exec` goes through it. -/
theorem exec_eq_next_iff {i : Instr} {s t : State} : exec i s = .next t ↔ Effect i s t := by
  refine ⟨fun h => ?_, exec_of_effect⟩
  obtain ⟨u, hu⟩ := exists_effect i s
  obtain rfl : u = t := Host.Outcome.next.inj ((exec_of_effect hu).symm.trans h)
  exact hu

theorem dotInRange_iff {x y : Int} : DotInRange x y ↔ 0 ≤ x ∧ x ≤ 11 ∧ 0 ≤ y ∧ y ≤ 7 := Iff.rfl

/-! ## The rules about one command (R20, R21, R27, R144, R145, R194) -/

/-- Settles O11: the frames and results read off each case. -/
theorem framesAndResultsPerCommand : Obligations.FramesAndResultsPerCommand := by
  unfold Obligations.FramesAndResultsPerCommand
  intro i s t h
  cases exec_eq_next_iff.1 h with
  | setbitmap | rendsnap | clear => exact ⟨⟨[_], rfl, rfl⟩, [], (List.append_nil _).symm, rfl⟩
  | rendernum hdom => exact ⟨⟨[_], rfl, (if_pos hdom).symm⟩, [], (List.append_nil _).symm, rfl⟩
  | rendernumOutOfDomain hout =>
    exact ⟨⟨[], (List.append_nil _).symm, (if_neg hout).symm⟩, [], (List.append_nil _).symm, rfl⟩
  | setdot hrange =>
    rw [dotInRange_iff] at hrange
    exact ⟨⟨[_], rfl, (if_pos (by omega)).symm⟩, [], (List.append_nil _).symm, rfl⟩
  | setdotOutOfRange hout =>
    rw [dotInRange_iff] at hout
    exact ⟨⟨[], (List.append_nil _).symm, (if_neg (by omega)).symm⟩, [], (List.append_nil _).symm, rfl⟩
  | save | restore | setori => exact ⟨⟨[], (List.append_nil _).symm, rfl⟩, [], (List.append_nil _).symm, rfl⟩
  | blinkGoingOn | blinkGoingOff | blinkinvGoingOn | blinkinvGoingOff => exact ⟨⟨[_], rfl, rfl⟩, [_], rfl, rfl⟩

/-- Settles O49: the new phase read off each case. -/
theorem blinkPhaseAfterEachCommand : Obligations.BlinkPhaseAfterEachCommand := by
  unfold Obligations.BlinkPhaseAfterEachCommand
  intro i s t h
  cases exec_eq_next_iff.1 h with
  | setbitmap | setdot | setdotOutOfRange | save | restore | rendsnap | clear | setori => rfl
  | rendernum hdom => exact (if_pos hdom).symm
  | rendernumOutOfDomain hout => exact (if_neg hout).symm
  | blinkGoingOn hphase | blinkGoingOff hphase | blinkinvGoingOn hphase | blinkinvGoingOff hphase =>
    simp only [hphase, Bool.not_false, Bool.not_true]

/-- Settles O50: outside `Show` no case mentions `ORI`, so the case that applied applies again. -/
theorem orientationReadOnlyByShow : Obligations.OrientationReadOnlyByShow := by
  unfold Obligations.OrientationReadOnlyByShow
  intro i s t v h
  cases exec_eq_next_iff.1 h with
  | setbitmap => trivial
  | rendernum hdom => exact fun hout => absurd hdom (by omega)
  | rendernumOutOfDomain hout => exact fun _ => exec_of_effect (.rendernumOutOfDomain hout _)
  | setdot hrange hcell => exact exec_of_effect (.setdot hrange hcell _ _)
  | setdotOutOfRange hout => exact exec_of_effect (.setdotOutOfRange hout _ _)
  | blinkGoingOn hphase | blinkGoingOff hphase | blinkinvGoingOn hphase | blinkinvGoingOff hphase =>
    exact exec_of_effect (by constructor; exact hphase)
  | save | restore | rendsnap | clear | setori => exact exec_of_effect (by constructor)

/-- Settles O51: the snapshot afterwards is the new `CUR` where a case writes it, and otherwise what it was. -/
theorem snapshotReadOnlyByRestoreAndRendsnap : Obligations.SnapshotReadOnlyByRestoreAndRendsnap := by
  unfold Obligations.SnapshotReadOnlyByRestoreAndRendsnap
  intro i s t v hrestore hrendsnap h
  cases exec_eq_next_iff.1 h with
  | restore => exact absurd rfl hrestore
  | rendsnap => exact absurd rfl hrendsnap
  | rendernum hdom hb => exact ⟨v, exec_of_effect (.rendernum (s := { s with sav := v }) hdom hb)⟩
  | rendernumOutOfDomain hout => exact ⟨v, exec_of_effect (.rendernumOutOfDomain hout _)⟩
  | setdot hrange hcell => exact ⟨v, exec_of_effect (.setdot hrange hcell _ _)⟩
  | setdotOutOfRange hout => exact ⟨v, exec_of_effect (.setdotOutOfRange hout _ _)⟩
  | blinkGoingOn hphase | blinkinvGoingOn hphase => exact ⟨s.cur, exec_of_effect (by constructor; exact hphase)⟩
  | blinkGoingOff hphase | blinkinvGoingOff hphase => exact ⟨v, exec_of_effect (by constructor; exact hphase)⟩
  | save => exact ⟨s.cur, exec_of_effect (.save _)⟩
  | setbitmap | clear | setori => exact ⟨v, exec_of_effect (by constructor)⟩

theorem effect_pending {i : Instr} {s t : State} (h : Effect i s t) : t.pending = s.pending := by
  cases h <;> rfl

/-- Settles O52: no case mentions a frame or a result already there, nor a packet. -/
theorem observationsAreNeverReadBack : Obligations.ObservationsAreNeverReadBack := by
  unfold Obligations.ObservationsAreNeverReadBack
  intro i s t fs rs ps h
  refine ⟨effect_pending (exec_eq_next_iff.1 h), exec_of_effect ?_⟩
  cases exec_eq_next_iff.1 h with
  | rendernum hdom hb =>
    simp only [← List.append_assoc]
    exact .rendernum (s := { s with sink := fs ++ s.sink, res := rs ++ s.res, pending := ps }) hdom hb
  | setdot hrange hcell =>
    simp only [← List.append_assoc]
    exact .setdot hrange hcell _ _
  | blinkGoingOn hphase | blinkGoingOff hphase | blinkinvGoingOn hphase | blinkinvGoingOff hphase =>
    simp only [← List.append_assoc]
    constructor
    exact hphase
  | setbitmap | rendsnap | clear =>
    simp only [← List.append_assoc]
    constructor
  | rendernumOutOfDomain hout => exact .rendernumOutOfDomain hout _
  | setdotOutOfRange hout => exact .setdotOutOfRange hout _ _
  | save | restore | setori => constructor

theorem State.shown_of_sink_eq_concat {t : State} {fs : List Frame} {f : Frame} (h : t.sink = fs ++ [f]) :
    t.shown = f := by
  simp [State.shown, h]

theorem State.shown_congr {s t : State} (h : t.sink = s.sink) : t.shown = s.shown := by
  simp only [State.shown, h]

/-- Settles O53: the last frame of each case. -/
theorem displayAfterEachCommand : Obligations.DisplayAfterEachCommand := by
  unfold Obligations.DisplayAfterEachCommand
  intro i s t h
  cases exec_eq_next_iff.1 h with
  | setbitmap | rendsnap => exact State.shown_of_sink_eq_concat rfl
  | clear =>
    exact ⟨(State.shown_of_sink_eq_concat rfl).trans pack_blankBitmap_eq_darkFrame.symm,
      State.shown_of_sink_eq_concat rfl⟩
  | rendernum hdom => exact (State.shown_of_sink_eq_concat rfl).trans (if_pos hdom).symm
  | rendernumOutOfDomain hout => exact (if_neg hout).symm
  | setdot hrange => exact (State.shown_of_sink_eq_concat rfl).trans (if_pos hrange).symm
  | setdotOutOfRange hout => exact (if_neg hout).symm
  | blinkGoingOn hphase | blinkinvGoingOn hphase =>
    exact (State.shown_of_sink_eq_concat rfl).trans (if_neg (by simp [hphase])).symm
  | blinkGoingOff hphase | blinkinvGoingOff hphase =>
    exact (State.shown_of_sink_eq_concat rfl).trans (if_pos hphase).symm
  | save | restore | setori => exact State.shown_congr rfl

end Sys2Proof.Machine

/-! ## Steps and whole runs (20_memory.md R42, R52; 43_display_commands.md R144, R149; 70_reset_and_hazards.md R190) -/

namespace Sys2Proof.Machine

/-- Settles O8: the packet is taken, and its command runs. -/
theorem stepRunsTheDecodedCommand : Obligations.StepRunsTheDecodedCommand := by
  unfold Obligations.StepRunsTheDecodedCommand
  exact fun _ _ _ _ hp hd => step_decoded hp hd

/-- Settles O9: with nothing to take, the step is the idle one. -/
theorem idleCoreHoldsItsState : Obligations.IdleCoreHoldsItsState := by
  unfold Obligations.IdleCoreHoldsItsState
  exact fun _ hp => step_idle hp

/-- An idle step changes nothing, a reserved packet nothing but `pending`, so a step that changes anything else ran a
command. -/
theorem command_of_change {α : Type} {f : State → α}
    (hf : ∀ (s : State) (ps : List Packet), f { s with pending := ps } = f s) {s t : State} (h : step s = .next t) (hne : f t ≠ f s) :
    ∃ p rest i, s.pending = p :: rest ∧ decode p = .ok i ∧ Effect i { s with pending := rest } t := by
  obtain ⟨-, rfl⟩ | ⟨p, rest, hp, ⟨i, hd, hi⟩ | ⟨why, -, rfl⟩⟩ := step_cases h
  · exact absurd rfl hne
  · exact ⟨p, rest, i, hp, hd, exec_eq_next_iff.1 hi⟩
  · exact absurd (hf s rest) hne

/-- Settles O46: `SETORI` is the only case with another `ORI`. -/
theorem oriWrittenOnlyBySetori : Obligations.OriWrittenOnlyBySetori := by
  unfold Obligations.OriWrittenOnlyBySetori
  intro s t h hne
  obtain ⟨p, rest, i, hp, hd, hi⟩ := command_of_change (f := State.ori) (fun _ _ => rfl) h hne
  refine ⟨p, rest, hp, ?_⟩
  cases hi with
  | setori => exact hd
  | setbitmap | rendernum | rendernumOutOfDomain | setdot | setdotOutOfRange | save | restore | rendsnap | blinkGoingOn
  | blinkGoingOff | blinkinvGoingOn | blinkinvGoingOff | clear => exact absurd rfl hne

/-- Settles O47: `SAVE` and the two off-to-on transitions are the only cases with another `SAV`. -/
theorem savChangesOnlyBySaveAndBlink : Obligations.SavChangesOnlyBySaveAndBlink := by
  unfold Obligations.SavChangesOnlyBySaveAndBlink
  intro s t h hne
  obtain ⟨p, rest, i, hp, hd, hi⟩ := command_of_change (f := State.sav) (fun _ _ => rfl) h hne
  cases hi with
  | save => exact ⟨rfl, p, rest, hp, .inl hd⟩
  | blinkGoingOn hoff => exact ⟨rfl, p, rest, hp, .inr ⟨hoff, .inl hd⟩⟩
  | blinkinvGoingOn hoff => exact ⟨rfl, p, rest, hp, .inr ⟨hoff, .inr hd⟩⟩
  | setbitmap | rendernum | rendernumOutOfDomain | setdot | setdotOutOfRange | restore | rendsnap | blinkGoingOff
  | blinkinvGoingOff | clear | setori => exact absurd rfl hne

/-- Settles O48: five commands have a case with another `CUR`. -/
theorem curChangesOnlyByFiveCommands : Obligations.CurChangesOnlyByFiveCommands := by
  unfold Obligations.CurChangesOnlyByFiveCommands
  intro s t h hne
  obtain ⟨p, rest, i, hp, hd, hi⟩ := command_of_change (f := State.cur) (fun _ _ => rfl) h hne
  refine ⟨p, rest, hp, ?_⟩
  cases hi with
  | setbitmap b => exact .inl ⟨b, hd⟩
  | rendernum hdom => exact .inr (.inl ⟨_, hd, hdom⟩)
  | setdot hrange _ on => exact .inr (.inr (.inl ⟨_, _, on, hd, dotInRange_iff.1 hrange⟩))
  | restore => exact .inr (.inr (.inr (.inl hd)))
  | clear => exact .inr (.inr (.inr (.inr hd)))
  | rendernumOutOfDomain | setdotOutOfRange | save | rendsnap | blinkGoingOn | blinkGoingOff | blinkinvGoingOn
  | blinkinvGoingOff | setori => exact absurd rfl hne

/-- A relation between the ends of a run holds of every run when it holds of the empty one and a step in front keeps
it. -/
theorem runsTo_induction {P : Nat → State → State → Prop} (zero : ∀ s, P 0 s s)
    (succ : ∀ k s u t, step s = .next u → P k u t → P (k + 1) s t) {k : Nat} {s t : State} (h : RunsTo k s t) :
    P k s t := by
  induction k generalizing s with
  | zero =>
    obtain rfl := runsTo_zero.1 h
    exact zero t
  | succ k ih =>
    obtain ⟨u, hu, ht⟩ := runsTo_succ.1 h
    exact succ k s u t hu (ih ht)

theorem step_rom {s t : State} (h : step s = .next t) : t.rom = s.rom := by
  by_contra hne
  obtain ⟨p, rest, i, -, -, hi⟩ := command_of_change (f := State.rom) (fun _ _ => rfl) h hne
  cases hi <;> exact hne rfl

/-- Settles O12: no case writes the ROM. -/
theorem romIsConstant : Obligations.RomIsConstant := by
  unfold Obligations.RomIsConstant
  exact fun _ _ _ => runsTo_induction (P := fun _ s t => t.rom = s.rom) (fun _ => rfl)
    fun _ _ _ _ hstep hrun => hrun.trans (step_rom hstep)

/-- `k` steps from `s` to `t` took the first `k` packets and added at most a frame for each, with no more results than
frames (R52, R144, R149). -/
def OnlyAppends (k : Nat) (s t : State) : Prop :=
  t.pending = s.pending.drop k ∧
    ∃ (fs : List Frame) (rs : List Bit), t.sink = s.sink ++ fs ∧ t.res = s.res ++ rs ∧
      fs.length ≤ k ∧ fs.length ≤ s.pending.length ∧ rs.length ≤ fs.length

theorem onlyAppends_zero (s : State) : OnlyAppends 0 s s :=
  ⟨rfl, [], [], (List.append_nil _).symm, (List.append_nil _).symm, le_rfl, Nat.zero_le _, le_rfl⟩

theorem onlyAppends_succ {k : Nat} {s u t : State} (hstep : OnlyAppends 1 s u) (hrun : OnlyAppends k u t) :
    OnlyAppends (k + 1) s t := by
  obtain ⟨hpend, fs, rs, hsink, hres, hone, havail, hle⟩ := hstep
  obtain ⟨hpend', fs', rs', hsink', hres', hk, havail', hle'⟩ := hrun
  have hleft : u.pending.length = s.pending.length - 1 := by rw [hpend, List.length_drop]
  refine ⟨?_, fs ++ fs', rs ++ rs', ?_, ?_, ?_, ?_, ?_⟩
  · rw [hpend', hpend, List.drop_drop, Nat.add_comm]
  · rw [hsink', hsink, List.append_assoc]
  · rw [hres', hres, List.append_assoc]
  all_goals simp only [List.length_append]; omega

/-- A command adds at most one frame, and a result only with a frame (R144). -/
theorem effect_appends {i : Instr} {s t : State} (h : Effect i s t) :
    ∃ (fs : List Frame) (rs : List Bit), t.sink = s.sink ++ fs ∧ t.res = s.res ++ rs ∧
      fs.length ≤ 1 ∧ rs.length ≤ fs.length := by
  cases h with
  | setbitmap | rendernum | setdot | rendsnap | clear =>
    exact ⟨[_], [], rfl, (List.append_nil _).symm, le_rfl, Nat.zero_le _⟩
  | blinkGoingOn | blinkGoingOff | blinkinvGoingOn | blinkinvGoingOff => exact ⟨[_], [_], rfl, rfl, le_rfl, le_rfl⟩
  | rendernumOutOfDomain | setdotOutOfRange | save | restore | setori =>
    exact ⟨[], [], (List.append_nil _).symm, (List.append_nil _).symm, Nat.zero_le _, le_rfl⟩

theorem step_onlyAppends {s t : State} (h : step s = .next t) : OnlyAppends 1 s t := by
  obtain ⟨hp, rfl⟩ | ⟨p, rest, hp, ⟨i, -, hi⟩ | ⟨why, -, rfl⟩⟩ := step_cases h
  · exact ⟨by rw [hp, List.drop_nil], [], [], (List.append_nil _).symm, (List.append_nil _).symm, Nat.zero_le _,
      Nat.zero_le _, le_rfl⟩
  · have heffect := exec_eq_next_iff.1 hi
    obtain ⟨fs, rs, hsink, hres, hone, hle⟩ := effect_appends heffect
    refine ⟨?_, fs, rs, hsink, hres, hone, ?_, hle⟩
    · rw [effect_pending heffect, hp, List.drop_one, List.tail_cons]
    · rw [hp, List.length_cons]
      omega
  · exact ⟨by rw [hp, List.drop_one, List.tail_cons], [], [], (List.append_nil _).symm, (List.append_nil _).symm,
      Nat.zero_le _, Nat.zero_le _, le_rfl⟩

/-- Settles O14: each step only appends, and appending composes. -/
theorem runsOnlyAppendObservations : Obligations.RunsOnlyAppendObservations := by
  unfold Obligations.RunsOnlyAppendObservations
  exact fun _ _ _ => runsTo_induction (P := OnlyAppends) onlyAppends_zero
    fun _ _ _ _ hstep hrun => onlyAppends_succ (step_onlyAppends hstep) hrun

/-- While the phase is on after a command, the last result is 1: the command turned it on and returned 1, or left both
as they were (R138, R139, R145). -/
theorem effect_lastResult {i : Instr} {s t : State} (h : Effect i s t)
    (hs : s.blink = true → s.res.getLast? = some true) (hon : t.blink = true) : t.res.getLast? = some true := by
  cases h with
  | blinkGoingOn | blinkinvGoingOn => exact List.getLast?_concat
  | setbitmap | rendernum | clear | blinkGoingOff | blinkinvGoingOff => cases hon
  | rendernumOutOfDomain | setdot | setdotOutOfRange | save | restore | rendsnap | setori => exact hs hon

theorem effect_observationsAgree {i : Instr} {s t : State} (h : Effect i s t) (hs : s.ObservationsAgree) :
    t.ObservationsAgree := by
  obtain ⟨hphase, hcount⟩ := hs
  obtain ⟨fs, rs, hsink, hres, -, hle⟩ := effect_appends h
  refine ⟨effect_lastResult h hphase, ?_⟩
  rw [hsink, hres, List.length_append, List.length_append]
  exact Nat.add_le_add hcount hle

/-- Settles O15: the agreement speaks of no packet, so only the command of a step can touch it, and no command breaks
it. -/
theorem stepKeepsObservationsAgree : Obligations.StepKeepsObservationsAgree := by
  unfold Obligations.StepKeepsObservationsAgree
  intro s t hs h
  obtain ⟨-, rfl⟩ | ⟨p, rest, -, ⟨i, -, hi⟩ | ⟨why, -, rfl⟩⟩ := step_cases h
  · exact hs
  · exact effect_observationsAgree (exec_eq_next_iff.1 hi) hs
  · exact hs

/-- Settles O16: after reset the phase is off, and nothing was returned. -/
theorem resetObservationsAgree : Obligations.ResetObservationsAgree := by
  unfold Obligations.ResetObservationsAgree
  refine ⟨fun hon => ?_, ?_⟩
  · rw [State.reset_blink] at hon
    cases hon
  · rw [State.reset_res, State.reset_sink, List.length_nil, List.length_nil]

end Sys2Proof.Machine

/-! ## The laws of the Bit Reversal Unit (40_bit_reversal.md R91 to R94) -/

namespace Sys2Proof.Machine

theorem getLsbD_swapStage (k : Nat) (m x : Word16) (j : Nat) :
    (swapStage k m x).getLsbD j =
      ((x.getLsbD (k + j) && m.getLsbD j) ||
        (decide (j < 16) && !decide (j < k) && (x.getLsbD (j - k) && m.getLsbD (j - k)))) := by
  simp only [swapStage, BitVec.getLsbD_or, BitVec.getLsbD_and, BitVec.getLsbD_shiftLeft, BitVec.getLsbD_ushiftRight]

/-- `m` marks the low one of each pair of bits `k` apart: a marked bit's partner is `k` above it and unmarked, an
unmarked bit's partner `k` below it and marked. Partners differ in the one bit `k` of their index. -/
abbrev MarksLowPartners (k : Nat) (m : Word16) : Prop :=
  ∀ j : Fin 16,
    (m.getLsbD j = true → k + j.val = j.val ^^^ k ∧ (k ≤ j.val → m.getLsbD (j - k) = false)) ∧
    (m.getLsbD j = false → j.val - k = j.val ^^^ k ∧ k ≤ j.val ∧ m.getLsbD (j - k) = true)

/-- One stage of the network exchanges partners (R91). -/
theorem getLsbD_swapStage_eq_xor {k : Nat} {m : Word16} (hm : MarksLowPartners k m) (x : Word16) {j : Nat}
    (hlt : j < 2 ^ 4) : (swapStage k m x).getLsbD j = x.getLsbD (j ^^^ k) := by
  obtain ⟨hlow, hhigh⟩ := hm ⟨j, hlt⟩
  rw [getLsbD_swapStage]
  cases hj : m.getLsbD j with
  | true =>
    obtain ⟨hpartner, hunmarked⟩ := hlow hj
    by_cases hk : j < k
    · simp [← hpartner, hk]
    · simp [← hpartner, hunmarked (Nat.le_of_not_lt hk)]
  | false =>
    obtain ⟨hpartner, hk, hmarked⟩ := hhigh hj
    simp [← hpartner, hk, hmarked, show j < 16 from hlt]

/-- The four stages together take bit `j` from bit `15 - j`, and the last shift drops the 4 lowest (R91). -/
theorem getLsbD_revRowNet (x : Word16) (j : Fin 12) : (revRowNet x).getLsbD j = x.getLsbD (11 - j.val) := by
  have stage1 := getLsbD_swapStage_eq_xor (k := 1) (m := 0x5555) (by decide)
  have stage2 := getLsbD_swapStage_eq_xor (k := 2) (m := 0x3333) (by decide)
  have stage4 := getLsbD_swapStage_eq_xor (k := 4) (m := 0x0F0F) (by decide)
  have stage8 := getLsbD_swapStage_eq_xor (k := 8) (m := 0x00FF) (by decide)
  have h8 : (4 + j.val) ^^^ 8 < 2 ^ 4 := Nat.xor_lt_two_pow (by omega) (by decide)
  have h4 : (4 + j.val) ^^^ 8 ^^^ 4 < 2 ^ 4 := Nat.xor_lt_two_pow h8 (by decide)
  have h2 : (4 + j.val) ^^^ 8 ^^^ 4 ^^^ 2 < 2 ^ 4 := Nat.xor_lt_two_pow h4 (by decide)
  have hreverse : ∀ j : Fin 12, (4 + j.val) ^^^ 8 ^^^ 4 ^^^ 2 ^^^ 1 = 11 - j.val := by decide
  rw [revRowNet, BitVec.truncate_eq_setWidth, BitVec.getLsbD_setWidth, BitVec.getLsbD_ushiftRight,
    decide_eq_true j.isLt, Bool.true_and, stage8 _ (by omega), stage4 _ h8, stage2 _ h4, stage1 _ h2, hreverse]

/-- Two rows with the same 12 bits are equal. -/
theorem row_ext {v w : Row} (h : ∀ j : Fin 12, v.getLsbD j = w.getLsbD j) : v = w :=
  BitVec.eq_of_getLsbD_eq fun j hj => h ⟨j, hj⟩

theorem getLsbD_revRow_rev (v : Row) (j : Fin 12) : (revRow v).getLsbD j = v.getLsbD j.rev := by
  rw [getLsbD_revRow v j j.isLt, val_rev_column]

/-- Settles O18: both sides take bit `j` from bit `11 - j`. -/
theorem swapNetworkComputesRevRow : Obligations.SwapNetworkComputesRevRow := by
  unfold Obligations.SwapNetworkComputesRevRow
  intro x
  refine row_ext fun j => ?_
  have hlow : 11 - j.val < 12 := by omega
  rw [getLsbD_revRowNet, getLsbD_revRow _ j j.isLt, BitVec.truncate_eq_setWidth, BitVec.getLsbD_setWidth,
    decide_eq_true hlow, Bool.true_and]

@[simp] theorem revRow_revRow (v : Row) : revRow (revRow v) = v :=
  row_ext fun j => by rw [getLsbD_revRow_rev, getLsbD_revRow_rev, Fin.rev_rev]

/-- Settles O19: every law is one about single bits, at the mirrored column. -/
theorem revRowLaws : Obligations.RevRowLaws := by
  unfold Obligations.RevRowLaws
  refine ⟨revRow_revRow, Function.Involutive.bijective revRow_revRow, fun a b => ⟨?or, ?and, ?xor, ?not⟩,
    fun j => ?single⟩
  case or => exact row_ext fun j => by simp only [getLsbD_revRow_rev, BitVec.getLsbD_or]
  case and => exact row_ext fun j => by simp only [getLsbD_revRow_rev, BitVec.getLsbD_and]
  case xor => exact row_ext fun j => by simp only [getLsbD_revRow_rev, BitVec.getLsbD_xor]
  case not => exact row_ext fun j => by simp only [getLsbD_revRow_rev, BitVec.getLsbD_not, Fin.is_lt, decide_true]
  case single =>
    refine row_ext fun l => ?_
    rw [getLsbD_revRow_rev, getLsbD_oneBit, ← val_rev_column, getLsbD_oneBit, decide_eq_decide, Fin.rev_eq_iff]

theorem revBitmap_revBitmap (b : Bitmap) : revBitmap (revBitmap b) = b := by
  ext i hi : 1
  rw [getElem_revBitmap, getElem_revBitmap, revRow_revRow]
  congr 1
  omega

theorem dotAt_revBitmap (b : Bitmap) (x : Fin 12) (y : Fin 8) : dotAt (revBitmap b) x y = dotAt b x.rev y.rev := by
  have hrow : (revBitmap b)[y] = revRow b[y.rev] := by simp only [revBitmap, Fin.getElem_fin, Vector.getElem_ofFn]
  rw [dotAt_eq_getLsbD_rev, dotAt_eq_getLsbD_rev, hrow, getLsbD_revRow_rev]

/-- Settles O21: both the rows and the bits of each row are reversed. -/
theorem revBitmapRotatesEveryDot : Obligations.RevBitmapRotatesEveryDot := by
  unfold Obligations.RevBitmapRotatesEveryDot
  exact ⟨revBitmap_revBitmap, dotAt_revBitmap⟩

end Sys2Proof.Machine

/-! ## The frame as a stream of 96 dots (41_frame_packer.md R101, R104, R105; 40_bit_reversal.md R94) -/

namespace Sys2Proof.Machine

/-- A slice of a word is a slice of the stream: word `k` stands there above the `2 - k` words after it (R46). -/
theorem extractLsb'_word (f : Frame) (k : Nat) (hk : k < 3) {start len : Nat} (h : start + len ≤ 32) :
    f[k].extractLsb' start len = (frameStream f).extractLsb' (32 * (2 - k) + start) len := by
  unfold frameStream
  interval_cases k <;>
  · simp (disch := omega) only [BitVec.extractLsb'_append_eq_of_le, BitVec.extractLsb'_append_eq_of_add_le]
    congr 1
    omega

theorem word_eq_extractLsb' (f : Frame) (k : Nat) (hk : k < 3) :
    f[k] = (frameStream f).extractLsb' (32 * (2 - k)) 32 :=
  BitVec.extractLsb'_eq_self.symm.trans (extractLsb'_word f k hk le_rfl)

/-- The frame of a bitmap, read as one number, is its rows side by side (R100, R105 (e)). -/
theorem frameStream_pack (b : Bitmap) : frameStream (pack b) = rowStream b := by
  rw [pack_eq_cut]
  exact (congrArg (· ++ _) (BitVec.extractLsb'_append_extractLsb'_eq_extractLsb' (by rfl))).trans
    ((BitVec.extractLsb'_append_extractLsb'_eq_extractLsb' (by rfl)).trans BitVec.extractLsb'_eq_self)

/-- The dot `(x, y)` of a bitmap is the bit `12y + x` of its stream, counted from the most significant one (R101). -/
theorem dotAt_eq_rowStream (b : Bitmap) (x : Fin 12) (y : Fin 8) :
    dotAt b x y = (rowStream b).getLsbD (95 - (12 * y.val + x.val)) := by
  have hbit : 12 * (7 - y.val) + (11 - x.val) = 95 - (12 * y.val + x.val) := by omega
  have hlt : 11 - x.val < 12 := by omega
  rw [dotAt, Fin.getElem_fin, row_eq_extractLsb' b y.val y.isLt, BitVec.getLsbD_extractLsb', decide_eq_true hlt,
    Bool.true_and, hbit]

/-- The dot `(x, y)` of a frame is the bit `12y + x` of its stream, counted from the most significant one (R101). -/
theorem frameDotAt_eq_frameStream (f : Frame) (x : Fin 12) (y : Fin 8) :
    frameDotAt f x y = (frameStream f).getLsbD (95 - (12 * y.val + x.val)) := by
  have hbit : 32 * (2 - (12 * y.val + x.val) / 32) + (31 - (12 * y.val + x.val) % 32) = 95 - (12 * y.val + x.val) := by
    omega
  have hlt : 31 - (12 * y.val + x.val) % 32 < 32 := by omega
  rw [frameDotAt, word_eq_extractLsb' f _ (by omega), BitVec.getLsbD_extractLsb', decide_eq_true hlt, Bool.true_and,
    hbit]

/-- Settles O24: a dot has the same place in the rows side by side and in the frame's stream. -/
theorem frameShowsEveryDot : Obligations.FrameShowsEveryDot := by
  unfold Obligations.FrameShowsEveryDot
  intro b x y
  rw [frameDotAt_eq_frameStream, frameStream_pack, dotAt_eq_rowStream]

/-- Every place of the stream is a dot's. -/
theorem exists_dot_of_place (p : Fin 96) : ∃ (x : Fin 12) (y : Fin 8), p.val = 95 - (12 * y.val + x.val) :=
  ⟨⟨(95 - p.val) % 12, by omega⟩, ⟨(95 - p.val) / 12, by omega⟩, by simp only; omega⟩

/-- Settles O22: the rotation takes the dot at a place of the stream to the mirrored place. -/
theorem rotatedFrameIsTheReversedStream : Obligations.RotatedFrameIsTheReversedStream := by
  unfold Obligations.RotatedFrameIsTheReversedStream
  intro b p
  obtain ⟨x, y, hp⟩ := exists_dot_of_place p
  have hmirror : 95 - p.val = 95 - (12 * y.rev.val + x.rev.val) := by
    rw [Fin.val_rev, Fin.val_rev]
    omega
  rw [hmirror, frameStream_pack, frameStream_pack, ← dotAt_eq_rowStream, ← dotAt_revBitmap, dotAt_eq_rowStream]
  exact congrArg _ hp

theorem rowStream_complement {b b' : Bitmap} (h : ∀ i : Fin 8, b'[i] = ~~~b[i]) : rowStream b' = ~~~rowStream b := by
  have row (i : Nat) (hi : i < 8) : b'[i] = ~~~b[i] := h ⟨i, hi⟩
  simp only [rowStream, row, BitVec.not_append]

theorem extractLsb'_complement {w : Nat} (x : BitVec w) {start len : Nat} (h : start + len ≤ w) :
    (~~~x).extractLsb' start len = ~~~x.extractLsb' start len := by
  ext j hj
  have hlt : start + j < w := by omega
  simp [hlt]

/-- Settles O27: the stream of the complemented rows is the complemented stream, and so are its three slices. -/
theorem packInvIsPackOfTheComplement : Obligations.PackInvIsPackOfTheComplement := by
  unfold Obligations.PackInvIsPackOfTheComplement
  intro b b' h
  have slice (start : Nat) (hlt : start + 32 ≤ 96) :
      ~~~(rowStream b).extractLsb' start 32 = (rowStream b').extractLsb' start 32 := by
    rw [rowStream_complement h, extractLsb'_complement _ hlt]
  rw [packInv_eq_words, pack_eq_cut b, pack_eq_cut b', ← slice 64 (by decide), ← slice 32 (by decide),
    ← slice 0 (by decide)]
  rfl

/-- A value put together from the low `n` bits of one word and the high bits, from `k` on, of another. -/
theorem setWidth_straddle (v w : Word32) {n k : Nat} (h : n + (32 - k) ≤ 32) :
    ((v &&& (BitVec.allOnes n).setWidth 32) <<< (32 - k) ||| w >>> k).setWidth (n + (32 - k)) =
      v.extractLsb' 0 n ++ w.extractLsb' k (32 - k) := by
  have hlow := setWidth_extractLsb'_low (m := 32) v n
  have hhigh := setWidth_extractLsb'_high (m := 32) w k le_rfl
  rw [BitVec.setWidth_eq] at hlow hhigh
  rw [← hlow, ← hhigh, ← BitVec.setWidth_append_eq_shiftLeft_setWidth_or, BitVec.setWidth_setWidth_of_le _ h,
    BitVec.setWidth_eq]

/-- Row `i` of `Unpack` is the twelve bits of the stream above the `7 - i` rows after it (R105 (a)). -/
theorem getElem_unpack (f : Frame) (i : Nat) (hi : i < 8) :
    (unpack f)[i] = (frameStream f).extractLsb' (12 * (7 - i)) 12 := by
  have inWord (k : Nat) (hk : k < 3) (start : Nat) (h : start + 12 ≤ 32) :
      (f[k] >>> start).setWidth 12 = (frameStream f).extractLsb' (32 * (2 - k) + start) 12 := by
    rw [BitVec.setWidth_ushiftRight_eq_extractLsb, extractLsb'_word f k hk h]
  have lastRow : f[2].setWidth 12 = (frameStream f).extractLsb' 0 12 := by
    simpa using inWord 2 (by decide) 0 (by decide)
  have row2 : ((f[0] &&& 0xFF) <<< 4 ||| f[1] >>> 28).setWidth 12 = (frameStream f).extractLsb' 60 12 := by
    refine (setWidth_straddle f[0] f[1] (n := 8) (k := 28) (by decide)).trans ?_
    rw [extractLsb'_word f 0 _ (by decide), extractLsb'_word f 1 _ (by decide),
      BitVec.extractLsb'_append_extractLsb'_eq_extractLsb' (by rfl)]
  have row5 : ((f[1] &&& 0xF) <<< 8 ||| f[2] >>> 24).setWidth 12 = (frameStream f).extractLsb' 24 12 := by
    refine (setWidth_straddle f[1] f[2] (n := 4) (k := 24) (by decide)).trans ?_
    rw [extractLsb'_word f 1 _ (by decide), extractLsb'_word f 2 _ (by decide),
      BitVec.extractLsb'_append_extractLsb'_eq_extractLsb' (by rfl)]
  interval_cases i
  · exact inWord 0 (by decide) 20 (by decide)
  · exact inWord 0 (by decide) 8 (by decide)
  · exact row2
  · exact inWord 1 (by decide) 16 (by decide)
  · exact inWord 1 (by decide) 4 (by decide)
  · exact row5
  · exact inWord 2 (by decide) 12 (by decide)
  · exact lastRow

/-- The rows that `Unpack` cuts, side by side again, are the stream they were cut from. -/
theorem rowStream_unpack (f : Frame) : rowStream (unpack f) = frameStream f := by
  simp only [rowStream, getElem_unpack, BitVec.extractLsb'_append_extractLsb'_eq_extractLsb']
  exact BitVec.extractLsb'_eq_self

/-- A frame is determined by its stream. -/
theorem frameStream_injective {f g : Frame} (h : frameStream f = frameStream g) : f = g := by
  ext k hk : 1
  rw [word_eq_extractLsb' f k hk, word_eq_extractLsb' g k hk, h]

/-- Settles O28: both sides are cut from, or put together to, the same stream. -/
theorem packAndUnpackAreInverse : Obligations.PackAndUnpackAreInverse := by
  unfold Obligations.PackAndUnpackAreInverse
  refine ⟨fun b => ?unpackPack, fun f => ?packUnpack⟩
  case unpackPack =>
    ext i hi : 1
    rw [getElem_unpack, frameStream_pack, row_eq_extractLsb' b i hi]
  case packUnpack => exact frameStream_injective ((frameStream_pack _).trans (rowStream_unpack f))

end Sys2Proof.Machine

/-! ## The lanes of the Glyph Compositor and the words they read (42_glyph_compositor.md R114 to R120) -/

namespace Sys2Proof.Machine

/-- The accumulator of a lane before the padding shift: sign, tens if not suppressed, ones (R114). -/
def laneSum (c : Config.Shifts) (rom : GlyphRom) (n : Int) (r : Fin 6) : Nat :=
  let sign := (glyphRow rom (signGlyph n) r).toNat
  let withTens := if tensDigit n = 0 then sign else (sign <<< c.tens) + (glyphRow rom (.digit (tensDigit n)) r).toNat
  (withTens <<< c.ones) + (glyphRow rom (.digit (onesDigit n)) r).toNat

theorem composeRow_eq_laneSum (c : Config.Shifts) (rom : GlyphRom) (n : Int) (r : Fin 6) :
    composeRow c rom n r = BitVec.ofNat 12 (laneSum c rom n r <<< padShift n) := rfl

/-! ### Bounded accumulators (R117) -/

theorem ofNat_shiftLeft (w x k : Nat) : BitVec.ofNat w (x <<< k) = BitVec.ofNat w x <<< k := by
  refine BitVec.eq_of_toNat_eq ?_
  simp [Nat.shiftLeft_eq]

/-- Every step of the lane is one on residues modulo `2^w`, so the wrapping lane holds the exact one's residue. -/
theorem composeRowWrapping_eq_laneSum (w : Nat) (c : Config.Shifts) (rom : GlyphRom) (n : Int) (r : Fin 6) :
    composeRowWrapping w c rom n r = (BitVec.ofNat w (laneSum c rom n r <<< padShift n)).setWidth 12 := by
  simp only [composeRowWrapping, laneSum, BitVec.zeroExtend, BitVec.truncate_eq_setWidth, ofNat_shiftLeft,
    BitVec.ofNat_add, apply_ite (BitVec.ofNat w), BitVec.ofNat_toNat]

/-- Settles O32: the low 12 bits of a residue modulo `2^w` are those of the number itself. -/
theorem wrappingAccumulatorIsExact : Obligations.WrappingAccumulatorIsExact := by
  unfold Obligations.WrappingAccumulatorIsExact
  intro w c rom n r hw
  rw [composeRowWrapping_eq_laneSum, BitVec.setWidth_ofNat_of_le hw, composeRow_eq_laneSum]

/-! ### A number and its negative (R120) -/

theorem tensDigit_neg (n : Int) : tensDigit (-n) = tensDigit n := by
  simp only [tensDigit, Int.natAbs_neg]

theorem onesDigit_neg (n : Int) : onesDigit (-n) = onesDigit n := by
  simp only [onesDigit, Int.natAbs_neg]

theorem signGlyph_of_neg {n : Int} (h : n < 0) : signGlyph n = .neg := if_neg (by omega)

/-- With equal sign glyphs the accumulator sees the absolute value only. -/
theorem laneSum_neg {c : Config.Shifts} {rom : GlyphRom} {n : Int} {r : Fin 6} (hn : 0 < n)
    (hsign : glyphRow rom .pos r = glyphRow rom .neg r) : laneSum c rom (-n) r = laneSum c rom n r := by
  simp only [laneSum, tensDigit_neg, onesDigit_neg, signGlyph_of_neg (show -n < 0 by omega),
    signGlyph_of_nonneg (show 0 ≤ n by omega), hsign]

/-- A positive number is padded by one bit more than its negative (R113). -/
theorem padShift_eq_padShift_neg_add_one {n : Int} (hn : 0 < n) : padShift n = padShift (-n) + 1 := by
  have hpos : 0 ≤ n := by omega
  have hneg : ¬ 0 ≤ -n := by omega
  simp only [padShift, tensDigit_neg, hpos, hneg, if_true, if_false, Config.padNonneg]
  omega

/-- Settles O34: one accumulator, shifted by one bit more. -/
theorem negatedNumberIsShiftedOneLess : Obligations.NegatedNumberIsShiftedOneLess := by
  unfold Obligations.NegatedNumberIsShiftedOneLess
  intro c rom a r ha _ hsign
  have hpos : 0 < (a : Int) := by omega
  rw [composeRow_eq_laneSum, composeRow_eq_laneSum, laneSum_neg hpos (hsign r), padShift_eq_padShift_neg_add_one hpos,
    Nat.shiftLeft_add, ofNat_shiftLeft _ _ 1]

/-! ### The ROM addresses (R41, R111, R112, R118) -/

theorem val_romAddress (g : Glyph) (r : Fin 6) : (romAddress g r).val = 6 * g.number.val + r.val := by
  simp only [romAddress, Config.fontHeight]
  omega

theorem val_romAddress_sign (n : Int) (r : Fin 6) :
    (romAddress (signGlyph n) r).val = (if 0 ≤ n then 60 else 66) + r.val := by
  rw [val_romAddress, signGlyph]
  split <;> rfl

theorem val_tensDigit {n : Int} (h : n.natAbs < 100) : (tensDigit n).val = n.natAbs / 10 :=
  Nat.mod_eq_of_lt (by omega)

theorem val_romAddress_tens {n : Int} (h : n.natAbs < 100) (r : Fin 6) :
    (romAddress (.digit (tensDigit n)) r).val = 6 * (n.natAbs / 10) + r.val := by
  rw [val_romAddress, ← val_tensDigit h]
  rfl

theorem val_romAddress_ones (n : Int) (r : Fin 6) :
    (romAddress (.digit (onesDigit n)) r).val = 6 * (n.natAbs % 10) + r.val :=
  val_romAddress _ r

theorem getElem?_romAddress (rom : GlyphRom) (g : Glyph) (r : Fin 6) :
    rom[(romAddress g r).val]? = some (glyphRow rom g r) :=
  Vector.getElem?_eq_getElem _

/-- With the normative shifts the accumulator is a sum of multiples (R114). -/
theorem laneSum_shifts (rom : GlyphRom) (n : Int) (r : Fin 6) :
    laneSum Config.shifts rom n r =
      if tensDigit n = 0 then
        2 * (glyphRow rom (signGlyph n) r).toNat + (glyphRow rom (.digit (onesDigit n)) r).toNat
      else 4 * (glyphRow rom (signGlyph n) r).toNat + 2 * (glyphRow rom (.digit (tensDigit n)) r).toNat +
        (glyphRow rom (.digit (onesDigit n)) r).toNat := by
  simp only [laneSum, Config.shifts, Nat.shiftLeft_eq, pow_one]
  split <;> omega

/-- Settles O30: the lanes as sums of multiples of the glyph rows, each at its address. -/
theorem composeClosedForm : Obligations.ComposeClosedForm := by
  unfold Obligations.ComposeClosedForm
  intro rom n hlo hhi t o pad
  have habs : n.natAbs < 100 := by omega
  have htens : tensDigit n = 0 ↔ t = 0 := by
    rw [tensDigit_eq_zero_iff habs]
    omega
  have hpad : padShift n = pad := by simp only [padShift, htens, pad]
  obtain ⟨b, hb⟩ := compose_inDomain (inNumberDomain_iff.2 ⟨hlo, hhi⟩) Config.shifts rom
  obtain ⟨hrow0, hrow7⟩ := compose_margins hb
  refine ⟨b, hb, hrow0, hrow7, fun r => ⟨glyphRow rom (signGlyph n) r, glyphRow rom (.digit (tensDigit n)) r,
    glyphRow rom (.digit (onesDigit n)) r, ?sign, ?tens, ?ones, ?lane⟩⟩
  case sign => rw [← val_romAddress_sign, getElem?_romAddress]
  case tens => rw [← val_romAddress_tens habs, getElem?_romAddress]
  case ones => rw [← val_romAddress_ones, getElem?_romAddress]
  case lane =>
    rw [getElem_congr_idx (Nat.add_comm 1 r.val), compose_lane hb, composeRow_eq_laneSum, BitVec.toNat_ofNat,
      Nat.shiftLeft_eq, laneSum_shifts, hpad]
    simp only [htens]

/-! ### What `Compose` reads of the ROM (R118, R119) -/

theorem glyphRow_eq_getElem (rom : GlyphRom) (g : Glyph) (r : Fin 6) : glyphRow rom g r = rom[romAddress g r] := rfl

theorem mem_composeReads {n : Int} (h : inNumberDomain n = true) {a : Fin 72} :
    a ∈ composeReads n ↔ ∃ r : Fin 6, ∃ g ∈ composeGlyphs n, romAddress g r = a := by
  simp [composeReads, h]

/-- Two ROMs that agree on what `Compose(n)` reads give the same bitmap, lane by lane (R119). -/
theorem compose_congr {c : Config.Shifts} {rom rom' : GlyphRom} {n : Int}
    (h : ∀ a ∈ composeReads n, rom[a] = rom'[a]) : compose c rom n = compose c rom' n := by
  cases hdom : inNumberDomain n with
  | false => rw [compose_outOfDomain hdom, compose_outOfDomain hdom]
  | true =>
    have hlane (r : Fin 6) : composeRow c rom n r = composeRow c rom' n r :=
      composeRow_congr fun g hg => h _ ((mem_composeReads hdom).2 ⟨r, g, hg, rfl⟩)
    simp only [compose, hlane]

/-- Below 100, a lane reads the tens glyph exactly of the numbers with two digits (R111, R118). -/
theorem composeGlyphs_eq {n : Int} (h : n.natAbs < 100) :
    composeGlyphs n =
      if n.natAbs < 10 then [signGlyph n, .digit (onesDigit n)]
      else [signGlyph n, .digit (tensDigit n), .digit (onesDigit n)] := by
  simp only [composeGlyphs, tensDigit_eq_zero_iff h]

theorem length_composeReads {n : Int} (h : inNumberDomain n = true) :
    (composeReads n).length = 6 * (composeGlyphs n).length := by
  simp only [composeReads, h, if_true, List.length_flatMap, List.length_map, List.map_const', List.length_finRange,
    List.sum_replicate, smul_eq_mul]

/-- Settles O33: the reads are the six rows of two or three glyphs, and a lane uses its row of them. -/
theorem composeReadsOnlyItsAddresses : Obligations.ComposeReadsOnlyItsAddresses := by
  unfold Obligations.ComposeReadsOnlyItsAddresses
  refine ⟨fun c rom rom' n h => compose_congr h, fun n hlo hhi => ?count, fun n a hlo hhi => ?addresses,
    fun c rom rom' n r h => composeRow_congr fun g _ => ?lane⟩
  case count =>
    rw [length_composeReads (inNumberDomain_iff.2 ⟨hlo, hhi⟩), composeGlyphs_eq (by omega)]
    split <;> rfl
  case addresses =>
    have habs : n.natAbs < 100 := by omega
    rw [mem_composeReads (inNumberDomain_iff.2 ⟨hlo, hhi⟩)]
    refine exists_congr fun r => ?_
    rw [← val_romAddress_sign, ← val_romAddress_tens habs, ← val_romAddress_ones, composeGlyphs_eq habs, ← Fin.ext_iff,
      ← Fin.ext_iff, ← Fin.ext_iff]
    by_cases hdigits : n.natAbs < 10
    · have hnotens : ¬ 10 ≤ n.natAbs := by omega
      simp [hdigits, hnotens, eq_comm]
    · have htens : 10 ≤ n.natAbs := by omega
      simp [hdigits, htens, eq_comm]
  case lane =>
    rw [glyphRow_eq_getElem, glyphRow_eq_getElem, Fin.getElem_fin, Fin.getElem_fin,
      getElem_congr_idx (val_romAddress g r), getElem_congr_idx (val_romAddress g r)]
    exact h g.number

end Sys2Proof.Machine

/-! ## Pairs of commands (43_display_commands.md R146) -/

namespace Sys2Proof.Machine

/-- Settles O56: `SAVE` and `RESTORE` copy the two bitmaps over each other and touch nothing else. -/
theorem saveAndRestoreRoundTrip : Obligations.SaveAndRestoreRoundTrip := by
  unfold Obligations.SaveAndRestoreRoundTrip
  exact fun s => ⟨⟨_, exec_of_effect (.save s), exec_of_effect (.restore _)⟩,
    ⟨_, exec_of_effect (.restore s), exec_of_effect (.save _)⟩⟩

/-- From phase off, either blink command saves `CUR`, turns the phase on and returns 1; only the frame differs. -/
theorem exec_blinkCommand_off {i : Instr} (hi : i = .blink ∨ i = .blinkinv) {s : State} (hoff : s.blink = false) :
    exec i s = .next { s with sav := s.cur, blink := true,
                              sink := s.sink ++ [if i = .blink then darkFrame else packInv s.cur],
                              res := s.res ++ [true] } := by
  obtain rfl | rfl := hi
  · exact exec_of_effect (.blinkGoingOn hoff)
  · exact exec_of_effect (.blinkinvGoingOn hoff)

/-- From phase on, the two blink commands do the same (R139). -/
theorem exec_blinkCommand_on {i : Instr} (hi : i = .blink ∨ i = .blinkinv) {s : State} (hon : s.blink = true) :
    exec i s = .next { s with blink := false, sink := s.sink ++ [pack s.cur], res := s.res ++ [false] } := by
  obtain rfl | rfl := hi
  · exact exec_of_effect (.blinkGoingOff hon)
  · exact exec_of_effect (.blinkinvGoingOff hon)

/-- Settles O54: the first of the two goes on, the second off, and going off does not depend on which one went on. -/
theorem twoBlinksRestoreTheBitmap : Obligations.TwoBlinksRestoreTheBitmap := by
  unfold Obligations.TwoBlinksRestoreTheBitmap
  intro i j s hi hj hoff
  refine ⟨_, exec_blinkCommand_off hi hoff, ?_⟩
  rw [exec_blinkCommand_on hj rfl, ← hoff]
  simp only [List.append_assoc, List.cons_append, List.nil_append]

/-- Two bitmaps with the same dots are equal. -/
theorem bitmap_ext_dots {b b' : Bitmap} (h : ∀ (x : Fin 12) (y : Fin 8), dotAt b x y = dotAt b' x y) : b = b' := by
  ext i hi : 1
  refine row_ext fun j => ?_
  have hdot := h j.rev ⟨i, hi⟩
  rwa [dotAt_eq_getLsbD_rev, dotAt_eq_getLsbD_rev, Fin.rev_rev] at hdot

/-- In range or not, `SETDOT` gives the value `on` to the dots at its coordinates, of which there is at most one, and
leaves all others (R134). -/
theorem dotAt_cur_of_exec_setdot {x y : Int} {on : Bit} {s t : State} (h : exec (.setdot x y on) s = .next t)
    (x' : Fin 12) (y' : Fin 8) :
    dotAt t.cur x' y' = if (x'.val : Int) = x ∧ (y'.val : Int) = y then on else dotAt s.cur x' y' := by
  cases exec_eq_next_iff.1 h with
  | setdot hrange hcell =>
    obtain ⟨cell, hcell', hrow, hcol⟩ := dotCell_inRange hrange
    obtain rfl := Option.some.inj (hcell'.symm.trans hcell)
    have hplace : y' = cell.1 ∧ x'.rev = cell.2 ↔ (x'.val : Int) = x ∧ (y'.val : Int) = y := by
      rw [Fin.ext_iff, Fin.ext_iff, val_rev_column]
      omega
    simp only [dotAt_eq_getLsbD_rev, getLsbD_bitmapWithDot, hplace]
  | setdotOutOfRange hout =>
    rw [dotInRange_iff] at hout
    rw [if_neg (by omega)]

/-- Settles O55: the dots decide, each given its value by the `SETDOT` at its place, if there is one. -/
theorem setdotIsIdempotentAndCommutes : Obligations.SetdotIsIdempotentAndCommutes := by
  unfold Obligations.SetdotIsIdempotentAndCommutes
  refine ⟨fun x y on s t u ht hu => ?idempotent, fun x y x' y' on on' s t u t' u' hne ht hu ht' hu' => ?commutes⟩
  case idempotent =>
    have hcur : u.cur = t.cur := bitmap_ext_dots fun x' y' => by
      rw [dotAt_cur_of_exec_setdot hu, dotAt_cur_of_exec_setdot ht]
      split <;> rfl
    refine ⟨hcur, ?_⟩
    have hshown := displayAfterEachCommand _ _ _ hu
    have hshown' := displayAfterEachCommand _ _ _ ht
    simp only at hshown hshown'
    rw [hshown, hcur]
    split
    case isTrue hrange => rw [hshown', if_pos hrange]
    case isFalse => rfl
  case commutes =>
    refine bitmap_ext_dots fun x'' y'' => ?_
    rw [dotAt_cur_of_exec_setdot hu, dotAt_cur_of_exec_setdot ht, dotAt_cur_of_exec_setdot hu',
      dotAt_cur_of_exec_setdot ht']
    by_cases hfirst : (x''.val : Int) = x ∧ (y''.val : Int) = y
    · have hsecond : ¬ ((x''.val : Int) = x' ∧ (y''.val : Int) = y') := by
        rintro ⟨hx', hy'⟩
        obtain ⟨hx, hy⟩ := hfirst
        exact hne (Prod.ext (hx.symm.trans hx') (hy.symm.trans hy'))
      rw [if_pos hfirst, if_neg hsecond, if_pos hfirst]
    · rw [if_neg hfirst, if_neg hfirst]

end Sys2Proof.Machine

/-! ## The host's routine ANIMCLEAR (43_display_commands.md R142) -/

namespace Sys2Proof.Machine

open Sys2Proof.Laws

/-! ### Painting a list of dots -/

/-- A dot to write: its value and its cell `(x, y)`. -/
abbrev DotWrite := Bit × (Fin 12 × Fin 8)

/-- The command of a write (R134). -/
def DotWrite.command (w : DotWrite) : Instr := setCell w.1 w.2

/-- A bitmap after one write (R134). -/
def paintDot (b : Bitmap) (w : DotWrite) : Bitmap := bitmapWithDot b (w.2.2, w.2.1.rev) w.1

/-- A bitmap after a list of writes. -/
def paint (b : Bitmap) (ws : List DotWrite) : Bitmap := ws.foldl paintDot b

/-- The frames of a list of writes: one after each. -/
def paintFrames (b : Bitmap) : List DotWrite → List Frame
  | [] => []
  | w :: ws => pack (paintDot b w) :: paintFrames (paintDot b w) ws

theorem paint_append (b : Bitmap) (ws ws' : List DotWrite) : paint b (ws ++ ws') = paint (paint b ws) ws' :=
  List.foldl_append

theorem length_paintFrames (b : Bitmap) (ws : List DotWrite) : (paintFrames b ws).length = ws.length := by
  induction ws generalizing b with
  | nil => rfl
  | cons w ws ih => rw [paintFrames, List.length_cons, List.length_cons, ih]

/-- Each frame is that of the bitmap after the writes so far. -/
theorem getElem?_paintFrames (b : Bitmap) (ws : List DotWrite) {k : Nat} (hk : k < ws.length) :
    (paintFrames b ws)[k]? = some (pack (paint b (ws.take (k + 1)))) := by
  induction ws generalizing b k with
  | nil => cases hk
  | cons w ws ih =>
    cases k with
    | zero => rfl
    | succ k => exact ih (paintDot b w) (Nat.lt_of_succ_lt_succ hk)

theorem getLast?_paintFrames (b : Bitmap) {ws : List DotWrite} (h : 0 < ws.length) :
    (paintFrames b ws).getLast? = some (pack (paint b ws)) := by
  rw [List.getLast?_eq_getElem?, length_paintFrames, getElem?_paintFrames b ws (by omega),
    Nat.sub_add_cancel h, List.take_length]

/-- Dots written to one value have it; the others are as they were. -/
theorem dotAt_paint (on : Bit) (b : Bitmap) (cells : List (Fin 12 × Fin 8)) (x : Fin 12) (y : Fin 8) :
    dotAt (paint b (cells.map (Prod.mk on))) x y = if (x, y) ∈ cells then on else dotAt b x y := by
  induction cells generalizing b with
  | nil => rfl
  | cons cell cells ih =>
    have hcell : dotAt (paintDot b (on, cell)) x y = if (x, y) = cell then on else dotAt b x y := by
      simp only [paintDot, dotAt_bitmapWithDot, Prod.ext_iff]
    rw [List.map_cons, paint, List.foldl_cons, ← paint, ih, hcell]
    by_cases hmem : (x, y) ∈ cells
    · simp [hmem]
    · simp [hmem]

/-! ### The commands of a list of writes -/

theorem wellFormed_command (w : DotWrite) : w.command.wellFormed = true := by
  obtain ⟨on, x, y⟩ := w
  simp only [DotWrite.command, setCell, Instr.wellFormed, Bool.and_eq_true, fitsSigned_iff]
  omega

/-- Taking the packet of a write paints its dot and emits the frame. -/
theorem step_write {s : State} {w : DotWrite} {rest : List Packet} (hp : s.pending = encode w.command :: rest) :
    step s =
      .next { s with cur := paintDot s.cur w, sink := s.sink ++ [pack (paintDot s.cur w)], pending := rest } := by
  rw [step_decoded hp (decodeOfEncode _ (wellFormed_command w))]
  exact exec_setdot_of_fin w.2.1 w.2.2 w.1 _

/-- Taking the packets of a list of writes paints the list and emits a frame after each. -/
theorem runsTo_writes (ws : List DotWrite) {s : State} {rest : List Packet}
    (hp : s.pending = ws.map (fun w => encode w.command) ++ rest) :
    RunsTo ws.length s
      { s with cur := paint s.cur ws, sink := s.sink ++ paintFrames s.cur ws, pending := rest } := by
  induction ws generalizing s with
  | nil =>
    rw [List.length_nil, runsTo_zero, paintFrames, List.append_nil, ← show s.pending = rest from hp]
    rfl
  | cons w ws ih =>
    refine runsTo_succ.2 ⟨_, step_write hp, ?_⟩
    have hrest := ih (s := { s with cur := paintDot s.cur w, sink := s.sink ++ [pack (paintDot s.cur w)],
                                    pending := ws.map (fun w => encode w.command) ++ rest }) rfl
    rw [List.append_assoc] at hrest
    exact hrest

/-! ### The routine's own writes -/

/-- The writes of the routine: every dot on in row-major order, then every dot off in reverse order (R142). -/
def animClearWrites : List DotWrite :=
  cellsRowMajor.map (Prod.mk true) ++ cellsRowMajor.reverse.map (Prod.mk false)

theorem animClearPackets_eq : animClearPackets = animClearWrites.map (fun w => encode w.command) := by
  simp only [animClearPackets, animClear, animClearWrites, List.map_append, List.map_map]
  rfl

theorem length_cellsRowMajor : cellsRowMajor.length = 96 := by decide

theorem length_animClearWrites : animClearWrites.length = 192 := by
  simp [animClearWrites, length_cellsRowMajor]

theorem length_take_animClearWrites {k : Nat} (hk : k ≤ 192) : (animClearWrites.take k).length = k := by
  rw [List.length_take, length_animClearWrites, min_eq_left hk]

/-- Row-major order is the order of the frame's stream: the cell `(x, y)` comes at place `12y + x` (GK3, R101). -/
theorem idxOf_cellsRowMajor : ∀ (x : Fin 12) (y : Fin 8), cellsRowMajor.idxOf (x, y) = 12 * y.val + x.val := by decide

theorem idxOf_reverse_cellsRowMajor :
    ∀ (x : Fin 12) (y : Fin 8), cellsRowMajor.reverse.idxOf (x, y) = 95 - (12 * y.val + x.val) := by
  decide +kernel

theorem mem_cellsRowMajor (x : Fin 12) (y : Fin 8) : (x, y) ∈ cellsRowMajor := by
  rw [← List.idxOf_lt_length_iff, idxOf_cellsRowMajor, length_cellsRowMajor]
  omega

theorem mem_take_cellsRowMajor {x : Fin 12} {y : Fin 8} {k : Nat} :
    (x, y) ∈ cellsRowMajor.take k ↔ 12 * y.val + x.val < k := by
  rw [List.mem_take_iff_idxOf_lt (mem_cellsRowMajor x y), idxOf_cellsRowMajor]

theorem mem_take_reverse_cellsRowMajor {x : Fin 12} {y : Fin 8} {k : Nat} :
    (x, y) ∈ cellsRowMajor.reverse.take k ↔ 95 - (12 * y.val + x.val) < k := by
  rw [List.mem_take_iff_idxOf_lt (List.mem_reverse.2 (mem_cellsRowMajor x y)), idxOf_reverse_cellsRowMajor]

/-- The first half of the sweep writes the cells on, in order. -/
theorem take_animClearWrites {k : Nat} (hk : k ≤ 96) :
    animClearWrites.take k = (cellsRowMajor.take k).map (Prod.mk true) := by
  rw [animClearWrites, List.take_append_of_le_length (by rwa [List.length_map, length_cellsRowMajor]), List.map_take]

/-- The second half writes them off, from the last one back. -/
theorem take_add_animClearWrites (k : Nat) :
    animClearWrites.take (96 + k) =
      animClearWrites.take 96 ++ (cellsRowMajor.reverse.take k).map (Prod.mk false) := by
  have hlen : (cellsRowMajor.map (Prod.mk true)).length = 96 := by rw [List.length_map, length_cellsRowMajor]
  rw [take_animClearWrites le_rfl, List.take_of_length_le length_cellsRowMajor.le, animClearWrites, ← hlen,
    List.take_length_add_append, List.map_take]

/-- After `k` writes of the first half the first `k` dots of the stream are lit, besides those lit before. -/
theorem dotAt_paint_firstHalf (b : Bitmap) {k : Nat} (hk : k ≤ 96) (x : Fin 12) (y : Fin 8) :
    dotAt (paint b (animClearWrites.take k)) x y = (decide (12 * y.val + x.val < k) || dotAt b x y) := by
  rw [take_animClearWrites hk, dotAt_paint, ← Bool.cond_decide, Bool.cond_true_left]
  simp only [mem_take_cellsRowMajor]

/-- After `k` writes of the second half the first `96 - k` dots of the stream are lit, and no other. -/
theorem dotAt_paint_secondHalf (b : Bitmap) (k : Nat) (x : Fin 12) (y : Fin 8) :
    dotAt (paint b (animClearWrites.take (96 + k))) x y = decide (12 * y.val + x.val < 96 - k) := by
  have hlit : 12 * y.val + x.val < 96 := by omega
  rw [take_add_animClearWrites, paint_append, dotAt_paint, dotAt_paint_firstHalf b le_rfl, decide_eq_true hlit,
    Bool.true_or]
  by_cases hleft : 12 * y.val + x.val < 96 - k
  · rw [if_neg (by rw [mem_take_reverse_cellsRowMajor]; omega), decide_eq_true hleft]
  · rw [if_pos (by rw [mem_take_reverse_cellsRowMajor]; omega), decide_eq_false hleft]

/-- Stopped after any number of its commands, the routine has painted that many of its writes (R142). -/
theorem runsTo_animClear (s : State) (rest : List Packet) {k : Nat} (hk : k ≤ 192) :
    RunsTo k { s with pending := animClearPackets ++ rest }
      { s with cur := paint s.cur (animClearWrites.take k),
               sink := s.sink ++ paintFrames s.cur (animClearWrites.take k),
               pending := animClearPackets.drop k ++ rest } := by
  have hpackets : animClearPackets ++ rest =
      (animClearWrites.take k).map (fun w => encode w.command) ++ (animClearPackets.drop k ++ rest) := by
    rw [List.map_take, ← animClearPackets_eq, ← List.append_assoc, List.take_append_drop]
  have hrun := runsTo_writes (animClearWrites.take k) (s := { s with pending := animClearPackets ++ rest }) hpackets
  rwa [length_take_animClearWrites hk] at hrun

/-- Every dot of the bitmap lit. -/
def litBitmap : Bitmap := Vector.replicate 8 0xFFF

theorem pack_litBitmap : pack litBitmap = litFrame := by decide

theorem dotAt_litBitmap : ∀ (x : Fin 12) (y : Fin 8), dotAt litBitmap x y = true := by decide

theorem dotAt_blankBitmap : ∀ (x : Fin 12) (y : Fin 8), dotAt blankBitmap x y = false := by decide

/-- Half way through, the whole display is lit, whatever it showed before. -/
theorem paint_firstHalf (b : Bitmap) : paint b (animClearWrites.take 96) = litBitmap :=
  bitmap_ext_dots fun x y => by
    rw [dotAt_paint_firstHalf b le_rfl, dotAt_litBitmap, decide_eq_true (by omega), Bool.true_or]

/-- At the end the bitmap is blank. -/
theorem paint_animClear (b : Bitmap) : paint b (animClearWrites.take 192) = blankBitmap :=
  bitmap_ext_dots fun x y => by
    rw [dotAt_paint_secondHalf b 96, dotAt_blankBitmap, Nat.sub_self, decide_eq_false (Nat.not_lt_zero _)]

/-- Settles O57: the routine paints its writes one by one, and each half's dots are those of its cells. -/
theorem animclearSweepsTheDisplay : Obligations.AnimclearSweepsTheDisplay := by
  unfold Obligations.AnimclearSweepsTheDisplay
  intro s rest k hk start
  have length {j : Nat} (hj : j ≤ 192) : (paintFrames s.cur (animClearWrites.take j)).length = j :=
    (length_paintFrames _ _).trans (length_take_animClearWrites hj)
  have last {j : Nat} (hj : j ≤ 192) (hpos : 0 < j) :
      (paintFrames s.cur (animClearWrites.take j)).getLast? = some (pack (paint s.cur (animClearWrites.take j))) :=
    getLast?_paintFrames _ (by rwa [length_take_animClearWrites hj])
  refine ⟨⟨_, _, runsTo_animClear s rest (by omega), length (by omega), last (by omega),
      dotAt_paint_firstHalf s.cur hk⟩,
    ⟨_, _, runsTo_animClear s rest (by omega), length (by omega), last (by omega) (by omega),
      dotAt_paint_secondHalf s.cur k⟩,
    ⟨_, ?atEnd, length le_rfl, ?dark, ?lit⟩⟩
  case atEnd =>
    have hdrop : animClearPackets.drop 192 = [] := by
      rw [animClearPackets_eq, ← List.map_drop, List.drop_of_length_le length_animClearWrites.le, List.map_nil]
    have hrun := runsTo_animClear s rest (k := 192) le_rfl
    rwa [paint_animClear, hdrop, List.nil_append] at hrun
  case dark => rw [last le_rfl (by decide), paint_animClear, pack_blankBitmap_eq_darkFrame]
  case lit =>
    rw [getElem?_paintFrames _ _ (by rw [length_take_animClearWrites le_rfl]; decide), List.take_take,
      min_eq_left (by decide), paint_firstHalf, pack_litBitmap]

end Sys2Proof.Machine
